-- ==== Sys2Proof/Word.lean ====
section
/-!
DEFINITION. The word types of the serpro HDLC link core (00_scope.md R8, R9, R11): every value the spec
shifts, masks, packs or counts modulo a power of two is an unsigned bit vector; a packet is a list of bytes.
-/

namespace Sys2Proof

/-- u8 (00_scope.md R8). -/
abbrev Byte := BitVec 8

/-- u16 (00_scope.md R8): a CRC value, a timer count, a status counter, a register read. -/
abbrev U16 := BitVec 16

/-- u3 (00_scope.md R9): a sequence number or a window slot index, modulo 8. -/
abbrev U3 := BitVec 3

/-- A packet (00_scope.md R11): a finite list of bytes the block never looks inside. -/
abbrev Packet := List Byte

end Sys2Proof
end

