-- ==== Sys2Proof/Syntax.lean ====
section
/-!
DEFINITION. The instructions: one constructor per mnemonic of spec/opcode_table.json. The first fifteen are
the commands of the command port (30_encoding.md R82, R83); the last eleven are the classes of a received
frame that passed its checks (30_encoding.md R88 to R91), which RX_BYTE decodes from the frame's control
byte and runs when the closing flag arrives (42_frame_parser.md R176).
-/

namespace Sys2Proof

/-- An instruction of the block. A frame class carries every bit of the control byte and all bytes between
the control byte and the FCS, also the ones its rule ignores, so that decoding drops nothing. -/
inductive Instr
  /-- 46_control.md R280 -/
  | nop
  /-- 46_control.md R281 -/
  | softReset
  /-- 46_control.md R282 -/
  | readReg (b : Byte)
  /-- 40_crc.md R129 -/
  | crcReset
  /-- 40_crc.md R130 -/
  | crcUpdate (b : Byte)
  /-- 40_crc.md R131 -/
  | crcGet
  /-- 40_crc.md R132 -/
  | crcGetLast
  /-- 41_frame_codec.md R143 -/
  | rxByte (b : Byte)
  /-- 41_frame_codec.md R141 -/
  | stuff (b : Byte)
  /-- 43_link_engine.md R193 -/
  | connect
  /-- 43_link_engine.md R194 -/
  | disconnect
  /-- 44_arq_window.md R228; L is the length of the payload -/
  | submit (payload : Packet)
  /-- 44_arq_window.md R235 -/
  | dispatchDone
  /-- 45_timers.md R262 -/
  | tick
  /-- 46_control.md R283: any opcode of 30_encoding.md R83 -/
  | reserved (opcode : Byte)
  /-- I-frame, 44_arq_window.md R229 to R231; pf is ignored (30_encoding.md R92) -/
  | iFrame (ns nr : U3) (pf : Bool) (payload : Packet)
  /-- RR, 44_arq_window.md R233; pf and info are ignored -/
  | rr (nr : U3) (pf : Bool) (info : Packet)
  /-- RNR, 44_arq_window.md R233; pf and info are ignored -/
  | rnr (nr : U3) (pf : Bool) (info : Packet)
  /-- REJ, 44_arq_window.md R234; pf and info are ignored -/
  | rej (nr : U3) (pf : Bool) (info : Packet)
  /-- SREJ, 44_arq_window.md R234; pf and info are ignored -/
  | srej (nr : U3) (pf : Bool) (info : Packet)
  /-- SNRM, 43_link_engine.md R196; pf and info are ignored -/
  | snrm (pf : Bool) (info : Packet)
  /-- UA, 43_link_engine.md R197; pf and info are ignored -/
  | ua (pf : Bool) (info : Packet)
  /-- DM, 43_link_engine.md R198; pf and info are ignored -/
  | dm (pf : Bool) (info : Packet)
  /-- DISC, 43_link_engine.md R199; pf and info are ignored -/
  | disc (pf : Bool) (info : Packet)
  /-- UI, 43_link_engine.md R200; pf is ignored, the payload is delivered -/
  | ui (pf : Bool) (payload : Packet)
  /-- unknown U-frame, 43_link_engine.md R201; code is the control byte with P/F cleared -/
  | uUnknown (code : Byte) (pf : Bool) (info : Packet)
  deriving DecidableEq, Repr

/-- The instruction is a received frame class, not a command of the command port. -/
def Instr.isFrame : Instr → Bool
  | .iFrame .. | .rr .. | .rnr .. | .rej .. | .srej .. | .snrm .. | .ua .. | .dm .. | .disc .. | .ui ..
  | .uUnknown .. => true
  | .nop | .softReset | .readReg .. | .crcReset | .crcUpdate .. | .crcGet | .crcGetLast | .rxByte ..
  | .stuff .. | .connect | .disconnect | .submit .. | .dispatchDone | .tick | .reserved .. => false

end Sys2Proof
end

