-- ==== Sys2Proof/WellFormed.lean ====
section
/-!
DEFINITION. Which terms of Instr the encodings of the spec can carry: a SUBMIT payload fits its length
byte (30_encoding.md R81), a reserved opcode lies in a range of R83, a frame's bytes fit the longest frame
any parameter value allows (R95 with 00_scope.md R7), an unknown U-frame code is one (R91).
-/

namespace Sys2Proof

/-- The reserved opcodes, range by range as 30_encoding.md R83 lists them. -/
def isReservedOpcode (op : Byte) : Bool :=
  (0x03 ≤ op && op ≤ 0x0F) || (0x14 ≤ op && op ≤ 0x1F) || (0x22 ≤ op && op ≤ 0x2F) ||
  (0x34 ≤ op && op ≤ 0x3F) || 0x41 ≤ op

/-- A code no row of 30_encoding.md R91 names: a U-frame's control byte (bits 1..0 = 0b11) with P/F clear. -/
def isUnknownUCode (code : Byte) : Bool :=
  code &&& 0x13 == 0x03 &&
  !(code == 0x83 || code == 0x63 || code == 0x0F || code == 0x43 || code == 0x03)

/-- The longest payload a frame can carry: P_MAX_FRAME at its largest, 259, less 4 (30_encoding.md R95). -/
def fitsFrame (p : Packet) : Bool := p.length ≤ 255

/-- Well-formedness of an instruction. -/
def Instr.wf : Instr → Bool
  | .submit p => p.length ≤ 255
  | .reserved op => isReservedOpcode op
  | .iFrame _ _ _ p | .rr _ _ p | .rnr _ _ p | .rej _ _ p | .srej _ _ p => fitsFrame p
  | .snrm _ p | .ua _ p | .dm _ p | .disc _ p | .ui _ p => fitsFrame p
  | .uUnknown code _ p => isUnknownUCode code && fitsFrame p
  | .nop | .softReset | .readReg _ | .crcReset | .crcUpdate _ | .crcGet | .crcGetLast | .rxByte _
  | .stuff _ | .connect | .disconnect | .dispatchDone | .tick => true

end Sys2Proof
end

