-- ==== Sys2Proof/Decode.lean ====
section
/-!
DEFINITION. The two decoders of the block and their encoder. Commands are read from the byte stream of the
command port (30_encoding.md R80 to R83, R97); frame classes from the control byte of a received frame
(R88 to R92). The bit fields of the control byte, for sending as well as receiving, stand here once.
-/

namespace Sys2Proof

/-! ### The control byte (30_encoding.md R88 to R92) -/

/-- N(S) = ctrl[3:1] of an I-frame (R89). -/
def ctrlNs (ctrl : Byte) : U3 := ctrl.extractLsb' 1 3

/-- N(R) = ctrl[7:5] of an I-frame or S-frame (R89, R90). -/
def ctrlNr (ctrl : Byte) : U3 := ctrl.extractLsb' 5 3

/-- P/F = ctrl[4] (R89, R90). -/
def ctrlPf (ctrl : Byte) : Bool := ctrl.getLsbD 4

/-- The function field ctrl[3:2] of an S-frame (R90): 0 RR, 1 RNR, 2 REJ, 3 SREJ. -/
def ctrlFn (ctrl : Byte) : BitVec 2 := ctrl.extractLsb' 2 2

/-- The code of a U-frame: the control byte with P/F cleared (R91). -/
def ctrlUCode (ctrl : Byte) : Byte := ctrl &&& 0xEF

/-- R88 item 1. -/
def isICtrl (ctrl : Byte) : Bool := !ctrl.getLsbD 0

/-- R88 item 2. -/
def isSCtrl (ctrl : Byte) : Bool := ctrl.getLsbD 0 && !ctrl.getLsbD 1

/-- R88 item 3. -/
def isUCtrl (ctrl : Byte) : Bool := ctrl.getLsbD 0 && ctrl.getLsbD 1

def fnRR : BitVec 2 := 0
def fnRNR : BitVec 2 := 1
def fnREJ : BitVec 2 := 2
def fnSREJ : BitVec 2 := 3

def codeSNRM : Byte := 0x83
def codeUA : Byte := 0x63
def codeDM : Byte := 0x0F
def codeDISC : Byte := 0x43
def codeUI : Byte := 0x03

/-- The control byte of an I-frame with P/F = 0: (N(R) << 5) OR (N(S) << 1) (R89). -/
def iCtrl (ns nr : U3) : Byte := (nr.setWidth 8 <<< 5) ||| (ns.setWidth 8 <<< 1)

/-- The control byte of an S-frame with P/F = 0: (N(R) << 5) OR (function << 2) OR 0x01 (R90). -/
def sCtrl (fn : BitVec 2) (nr : U3) : Byte := (nr.setWidth 8 <<< 5) ||| (fn.setWidth 8 <<< 2) ||| 0x01

/-- A control byte with its P/F bit, bit 4, set as given (R92). -/
def withPf (pf : Bool) (ctrl : Byte) : Byte := if pf then ctrl ||| 0x10 else ctrl

/-! ### Received frames -/

/-- The frame class of a received frame with this control byte and these bytes between control and FCS
(42_frame_parser.md R176; the unknown U-frame has the lowest priority, 43_link_engine.md R195). -/
def decodeFrame (ctrl : Byte) (payload : Packet) : Instr :=
  let pf := ctrlPf ctrl
  if isICtrl ctrl then .iFrame (ctrlNs ctrl) (ctrlNr ctrl) pf payload
  else if isSCtrl ctrl then
    if ctrlFn ctrl = fnRR then .rr (ctrlNr ctrl) pf payload
    else if ctrlFn ctrl = fnRNR then .rnr (ctrlNr ctrl) pf payload
    else if ctrlFn ctrl = fnREJ then .rej (ctrlNr ctrl) pf payload
    else .srej (ctrlNr ctrl) pf payload
  else if ctrlUCode ctrl = codeSNRM then .snrm pf payload
  else if ctrlUCode ctrl = codeUA then .ua pf payload
  else if ctrlUCode ctrl = codeDM then .dm pf payload
  else if ctrlUCode ctrl = codeDISC then .disc pf payload
  else if ctrlUCode ctrl = codeUI then .ui pf payload
  else .uUnknown (ctrlUCode ctrl) pf payload

/-! ### Commands -/

/-- Why no command can be read from a byte stream (30_encoding.md R97; 70_reset_and_hazards.md R338). -/
inductive DecodeRefusal
  /-- the stream is exhausted -/
  | noCommand
  /-- the opcode needs an operand byte that is not there yet -/
  | missingOperand (opcode : Byte)
  /-- a payload of `needed` bytes was announced and only `present` of them are there -/
  | missingPayload (needed present : Nat)
  deriving DecidableEq, Repr

/-- Format C1 (30_encoding.md R81): one operand byte after the opcode. -/
def decodeC1 (opcode : Byte) (mk : Byte → Instr) : List Byte → Except DecodeRefusal (Instr × List Byte)
  | [] => .error (.missingOperand opcode)
  | b :: rest => .ok (mk b, rest)

/-- Format CV (30_encoding.md R81): a length byte L, then L payload bytes. -/
def decodeCV (opcode : Byte) (mk : Packet → Instr) : List Byte → Except DecodeRefusal (Instr × List Byte)
  | [] => .error (.missingOperand opcode)
  | len :: rest =>
    if rest.length < len.toNat then .error (.missingPayload len.toNat rest.length)
    else .ok (mk (rest.take len.toNat), rest.drop len.toNat)

/-- The next whole command of the command stream and what follows it (30_encoding.md R80 to R83, R97). -/
def decode : List Byte → Except DecodeRefusal (Instr × List Byte)
  | [] => .error .noCommand
  | op :: rest =>
    match op with
    | 0x00#8 => .ok (.nop, rest)
    | 0x01#8 => .ok (.softReset, rest)
    | 0x02#8 => decodeC1 op .readReg rest
    | 0x10#8 => .ok (.crcReset, rest)
    | 0x11#8 => decodeC1 op .crcUpdate rest
    | 0x12#8 => .ok (.crcGet, rest)
    | 0x13#8 => .ok (.crcGetLast, rest)
    | 0x20#8 => decodeC1 op .rxByte rest
    | 0x21#8 => decodeC1 op .stuff rest
    | 0x30#8 => .ok (.connect, rest)
    | 0x31#8 => .ok (.disconnect, rest)
    | 0x32#8 => decodeCV op .submit rest
    | 0x33#8 => .ok (.dispatchDone, rest)
    | 0x40#8 => .ok (.tick, rest)
    | _ => .ok (.reserved op, rest)

/-! ### Encoding -/

/-- The bytes of a well-formed instruction. For a command: its bytes on the command port (30_encoding.md
R81, R82). For a frame class: its control byte, then the bytes between the control byte and the FCS (R86,
R89 to R91); the address byte and the FCS are the same for every class and are emit_frame's. -/
def encode : Instr → List Byte
  | .nop => [0x00]
  | .softReset => [0x01]
  | .readReg b => [0x02, b]
  | .crcReset => [0x10]
  | .crcUpdate b => [0x11, b]
  | .crcGet => [0x12]
  | .crcGetLast => [0x13]
  | .rxByte b => [0x20, b]
  | .stuff b => [0x21, b]
  | .connect => [0x30]
  | .disconnect => [0x31]
  | .submit p => 0x32 :: BitVec.ofNat 8 p.length :: p
  | .dispatchDone => [0x33]
  | .tick => [0x40]
  | .reserved op => [op]
  | .iFrame ns nr pf p => withPf pf (iCtrl ns nr) :: p
  | .rr nr pf p => withPf pf (sCtrl fnRR nr) :: p
  | .rnr nr pf p => withPf pf (sCtrl fnRNR nr) :: p
  | .rej nr pf p => withPf pf (sCtrl fnREJ nr) :: p
  | .srej nr pf p => withPf pf (sCtrl fnSREJ nr) :: p
  | .snrm pf p => withPf pf codeSNRM :: p
  | .ua pf p => withPf pf codeUA :: p
  | .dm pf p => withPf pf codeDM :: p
  | .disc pf p => withPf pf codeDISC :: p
  | .ui pf p => withPf pf codeUI :: p
  | .uUnknown code pf p => withPf pf code :: p

/-! ### One opcode-table row as bytes at the command port -/

/-- The low `n` bytes of w, the least significant first. -/
def lowBytes : Nat → Nat → List Byte
  | 0, _ => []
  | n + 1, w => BitVec.ofNat 8 w :: lowBytes n (w / 256)

/-- The longest command: 2 + 255 bytes (30_encoding.md R81). -/
def maxCommandBytes : Nat := 257

/-- An instruction of nbits bits w as bytes in stream order, every byte above nbits 0. -/
def tableStream (nbits w : Nat) : List Byte :=
  lowBytes ((nbits + 7) / 8) w ++ List.replicate maxCommandBytes 0

/-- The bytes of tableStream that its first command takes: all of them where none decodes. -/
def tableCommand (nbits w : Nat) : List Byte :=
  match decode (tableStream nbits w) with
  | .ok (_, rest) => (tableStream nbits w).take ((tableStream nbits w).length - rest.length)
  | .error _ => tableStream nbits w

/-- The instruction the command port's decoder reads from an opcode-table row's bits (log entry 9). -/
def decodeTableWord (nbits w : Nat) : Option Instr :=
  match decode (tableStream nbits w) with
  | .ok (i, _) => some i
  | .error _ => none

end Sys2Proof
end

