-- ==== Sys2Proof/Config.lean ====
section
/-!
DEFINITION. What one block instance fixes (00_scope.md R7): the twelve parameters, their ranges and
defaults; and the model's two free values, opaque constants that nothing in Lean can evaluate.
-/

namespace Sys2Proof

/-- P_CRC_VARIANT (00_scope.md R7; 40_crc.md R120, R121). -/
inductive CrcVariant
  | reflected8408
  | msbFirst1021
  deriving DecidableEq, Repr

/-- P_FCS_ORDER (00_scope.md R7; 20_memory.md R64). -/
inductive FcsOrder
  | lsbFirst
  | msbFirst
  deriving DecidableEq, Repr

/-- P_REJ_POLICY (00_scope.md R7; 44_arq_window.md R234). -/
inductive RejPolicy
  | goBackN
  | timerOnly
  deriving DecidableEq, Repr

/-- The parameters of 00_scope.md R7, fixed for the life of a block instance. -/
structure Params where
  /-- P_STATION_ADDR -/
  stationAddr : Byte
  /-- P_MAX_FRAME, counting unstuffed bytes from address through FCS -/
  maxFrame : Nat
  /-- P_IN_FIFO_DEPTH, in packets -/
  inFifoDepth : Nat
  /-- P_ALLOWED_IN_TRANSIT, in packets -/
  allowedInTransit : Nat
  /-- P_T_LINK, in ticks -/
  tLink : U16
  /-- P_T_RETX, in ticks -/
  tRetx : U16
  /-- P_TIMER_PRESENT -/
  timerPresent : Bool
  /-- P_CRC_VARIANT -/
  crcVariant : CrcVariant
  /-- P_CRC_XOROUT -/
  crcXorout : U16
  /-- P_FCS_ORDER -/
  fcsOrder : FcsOrder
  /-- P_REJ_POLICY -/
  rejPolicy : RejPolicy
  deriving DecidableEq, Repr

/-- P_MAX_PAYLOAD, derived (00_scope.md R7). -/
def Params.maxPayload (p : Params) : Nat := p.maxFrame - 4

/-- The defaults of 00_scope.md R7. -/
def Params.default : Params where
  stationAddr := 0xFF
  maxFrame := 128
  inFifoDepth := 8
  allowedInTransit := 1
  tLink := 1000
  tRetx := 1000
  timerPresent := true
  crcVariant := .reflected8408
  crcXorout := 0x0000
  fcsOrder := .lsbFirst
  rejPolicy := .goBackN

/-- Every parameter lies in the range 00_scope.md R7 gives it. -/
abbrev Params.InRange (p : Params) : Prop :=
  (4 ≤ p.maxFrame ∧ p.maxFrame ≤ 259) ∧ (1 ≤ p.inFifoDepth ∧ p.inFifoDepth ≤ 255) ∧
  (1 ≤ p.allowedInTransit ∧ p.allowedInTransit ≤ 7) ∧ p.tLink ≠ 0 ∧ p.tRetx ≠ 0

/-- FREE VALUE: what RX_BUF holds at an address nothing has written since reset. 10_state.md R36 leaves the
contents unspecified; 93_implementation_defined.md item 16 treats them as "any value" (log entry 5). -/
opaque Config.rxBufUnspecified : Nat → Byte

/-- FREE VALUE: the payload of an I-frame that send_I is asked to send from an empty slot. No caller of
44_arq_window.md R225 does so, and the rules give the frame no payload (log entry 6). -/
opaque Config.emptySlotPacket : U3 → Packet

end Sys2Proof
end

