-- ==== Sys2Proof/Machine/State.lean ====
section
/-!
DEFINITION. The state of one block (10_state.md R20 to R33), the records of its output stream (30_encoding.md
R98), the reasons a step can stop, and the machine after reset (10_state.md R36).
-/

namespace Sys2Proof.Machine

/-- One CRC accumulator instance (10_state.md R22). -/
structure Crc where
  /-- VAL, the running value -/
  val : U16
  /-- H1, the value VAL had before the most recent update -/
  h1 : U16
  /-- H2, the value VAL had before the two most recent updates -/
  h2 : U16
  deriving DecidableEq, Repr

/-- RX_STATE (10_state.md R23). -/
inductive RxState
  | idle
  | inFrame
  | escaping
  deriving DecidableEq, Repr

/-- LINK (10_state.md R26). -/
inductive Link
  | down
  | connecting
  | up
  deriving DecidableEq, Repr

/-- A down-counting one-shot timer, T_ARMED and T_CNT (10_state.md R30, R31). -/
structure Timer where
  armed : Bool
  cnt : U16
  deriving DecidableEq, Repr

/-- The eight status counters (10_state.md R33). -/
structure Counters where
  /-- CNT_CRC_ERR -/
  crcErr : U16
  /-- CNT_SHORT -/
  short : U16
  /-- CNT_OVERRUN -/
  overrun : U16
  /-- CNT_REJ_SENT -/
  rejSent : U16
  /-- CNT_RETX -/
  retx : U16
  /-- CNT_WIN_DISCARD -/
  winDiscard : U16
  /-- CNT_NOTUP_DROP -/
  notUpDrop : U16
  /-- CNT_BAD_NR -/
  badNr : U16
  deriving DecidableEq, Repr

/-- Status codes of a response (30_encoding.md R85). -/
inductive Status
  | ok
  | busy
  | illegal
  | full
  | tooLong
  | badState
  deriving DecidableEq, Repr

/-- LINK_DOWN reasons (30_encoding.md R99). -/
inductive LinkDownReason
  | loc
  | peerDm
  | peerDisc
  | unknownU
  deriving DecidableEq, Repr

/-- One record of the output stream (30_encoding.md R98). -/
inductive Output
  /-- LINE(b) -/
  | line (b : Byte)
  /-- RESP(status, data) -/
  | resp (status : Status) (data : List Byte)
  /-- DELIVER_PKT(p) -/
  | deliverPkt (p : Packet)
  /-- DELIVER_OOB(p) -/
  | deliverOob (p : Packet)
  /-- LINK_UP -/
  | linkUp
  /-- LINK_DOWN(reason) -/
  | linkDown (reason : LinkDownReason)
  deriving DecidableEq, Repr

/-- The receive buffer's contents as (address, byte) pairs, in the canonical form of Memory.wf. -/
abbrev Memory := List Host.Cell

/-- The state of one block instance: the elements of 10_state.md R22 to R33 under the spec's names, then the
model's own fields cfg (log entry 1), input (log entry 2) and out (log entry 3). -/
structure State where
  /-- CRC_H -/
  crcH : Crc
  /-- CRC_RX -/
  crcRx : Crc
  /-- CRC_TX -/
  crcTx : Crc
  /-- RX_STATE -/
  rxState : RxState
  /-- RX_BUF -/
  rxBuf : Memory
  /-- RX_LEN -/
  rxLen : Nat
  /-- RX_OVR -/
  rxOvr : Bool
  /-- LINK -/
  link : Link
  /-- TX_SEQ -/
  txSeq : U3
  /-- RX_NEXT -/
  rxNext : U3
  /-- WIN_SLOT[0..7] -/
  winSlot : Vector (Option Packet) 8
  /-- WIN_ACK -/
  winAck : U3
  /-- WIN_TX -/
  winTx : U3
  /-- IN_FIFO, oldest first -/
  inFifo : List Packet
  /-- LT_ARMED, LT_CNT -/
  lt : Timer
  /-- RT_ARMED, RT_CNT -/
  rt : Timer
  /-- DISP_PEND -/
  dispPend : Bool
  /-- ACK_PEND -/
  ackPend : Bool
  /-- CNT_* -/
  cnt : Counters
  /-- the parameters of the instance; no command changes them -/
  cfg : Params
  /-- command bytes issued by the host and not yet read by the block -/
  input : List Byte
  /-- the output stream so far, oldest record first; never read by the block -/
  out : List Output
  deriving DecidableEq, Repr

/-- Why a step stops with a fault. The block itself never faults (60_exceptions.md R300). -/
inductive Fault
  /-- Raised by RX_BYTE alone, when a frame completes with RX_LEN > P_MAX_FRAME: the frame parser would read
  RX_BUF at an address that does not exist (20_memory.md R60). Safe: the model stops, in states that no run
  reaches (log entry 7). -/
  | rxBufAddress
  deriving DecidableEq, Repr

/-- Why a step is refused. -/
inductive Refusal
  /-- Raised by exec for an instruction with no meaning yet, by its mnemonic in the opcode table. Safe. -/
  | notModelled (mnemonic : String)
  /-- Raised by step when no byte is left in the command stream: the run has ended (70_reset_and_hazards.md
  R341). Safe: the model stops where the block waits (log entry 4). -/
  | commandStreamEnded
  /-- Raised by step when the bytes of the last command are not all present: a trailing incomplete command is
  refused and not executed (70_reset_and_hazards.md R338). Safe (log entry 4). -/
  | incompleteCommand
  deriving DecidableEq, Repr

/-- A CRC instance after reset (10_state.md R36). -/
def Crc.initial : Crc := { val := 0xFFFF, h1 := 0xFFFF, h2 := 0xFFFF }

/-- A timer after reset (10_state.md R36). -/
def Timer.off : Timer := { armed := false, cnt := 0 }

/-- The counters after reset (10_state.md R36). -/
def Counters.zero : Counters :=
  { crcErr := 0, short := 0, overrun := 0, rejSent := 0, retx := 0, winDiscard := 0, notUpDrop := 0, badNr := 0 }

/-- The state after power-on reset of a block with parameters p (10_state.md R36; 70_reset_and_hazards.md R330,
R332). RX_BUF's contents are unspecified: nothing is listed. No command has been issued, nothing is output. -/
def State.resetWith (p : Params) : State where
  crcH := .initial
  crcRx := .initial
  crcTx := .initial
  rxState := .idle
  rxBuf := []
  rxLen := 0
  rxOvr := false
  link := .down
  txSeq := 0
  rxNext := 0
  winSlot := Vector.replicate 8 none
  winAck := 0
  winTx := 0
  inFifo := []
  lt := .off
  rt := .off
  dispPend := false
  ackPend := false
  cnt := .zero
  cfg := p
  input := []
  out := []

/-- The machine right after reset, with the default parameters of 00_scope.md R7 (log entry 1). -/
def State.reset : State := State.resetWith Params.default

end Sys2Proof.Machine
end

