-- ==== Sys2Proof/Machine/Ops.lean ====
section
/-!
DEFINITION. The named operations every meaning is written over: RX_BUF, the output stream, the counters, the
timers, the CRC instances, stuffing and frame emission, the window, the sequence reset and the link changes.
There is no operation that takes or returns from an exception: the block has no exceptions, traps or
interrupts (60_exceptions.md R300, R304); an error is a counter, a frame to the peer, or a response's status.
-/

namespace Sys2Proof.Machine

/-! ### RX_BUF, the only byte-addressed store (20_memory.md R60) -/

/-- The byte written at an address; none where nothing has written since reset. -/
def Memory.read : Memory → Nat → Option Byte
  | [], _ => none
  | c :: m, a => if c.1 = a then some c.2 else Memory.read m a

/-- Write one byte, keeping the addresses strictly rising. An unlisted address reads as no byte, so no entry
ever equals what an unlisted address reads as. -/
def Memory.write : Memory → Nat → Byte → Memory
  | [], a, b => [(a, b)]
  | c :: m, a, b =>
    if a < c.1 then (a, b) :: c :: m
    else if a = c.1 then (a, b) :: m
    else c :: Memory.write m a b

/-- The canonical form: addresses strictly rising. -/
def Memory.wf : Memory → Bool
  | [] => true
  | [_] => true
  | c :: d :: m => c.1 < d.1 && Memory.wf (d :: m)

/-- RX_BUF[a]: the byte written there, or the free value of an unwritten address (10_state.md R36). -/
def rxRead (s : State) (a : Nat) : Byte := (Memory.read s.rxBuf a).getD (Config.rxBufUnspecified a)

/-- RX_BUF[a] <- b (00_scope.md R10). -/
def rxWrite (a : Nat) (b : Byte) (s : State) : State := { s with rxBuf := Memory.write s.rxBuf a b }

/-- RX_BUF[0 .. RX_LEN-1], or a fault where that range passes the last address, P_MAX_FRAME - 1 (20_memory.md
R60; log entry 7). -/
def rxFrame (s : State) : Except Fault (List Byte) :=
  if s.rxLen ≤ s.cfg.maxFrame then .ok ((List.range s.rxLen).map (rxRead s)) else .error .rxBufAddress

/-! ### Output stream (00_scope.md R10, 30_encoding.md R98) -/

/-- Append records to the output stream. -/
def emit (os : List Output) (s : State) : State := { s with out := s.out ++ os }

/-- respond(status, data) (30_encoding.md R84). -/
def respond (st : Status) (data : List Byte) (s : State) : State := emit [.resp st data] s

/-- emit_event of a delivery; DISP_PEND <- 1 until DISPATCH_DONE (10_state.md R32; 44_arq_window.md R231;
43_link_engine.md R200). -/
def deliver (o : Output) (s : State) : State := { emit [o] s with dispPend := true }

/-! ### Counters (00_scope.md R10 `count`, 10_state.md R33) -/

/-- The names of the status counters. -/
inductive Counter
  | crcErr
  | short
  | overrun
  | rejSent
  | retx
  | winDiscard
  | notUpDrop
  | badNr
  deriving DecidableEq, Repr

/-- A counter's value. -/
def counterValue (c : Counter) (k : Counters) : U16 :=
  match c with
  | .crcErr => k.crcErr
  | .short => k.short
  | .overrun => k.overrun
  | .rejSent => k.rejSent
  | .retx => k.retx
  | .winDiscard => k.winDiscard
  | .notUpDrop => k.notUpDrop
  | .badNr => k.badNr

/-- Add n to a counter, modulo 65536. -/
def addCounter (c : Counter) (n : Nat) (k : Counters) : Counters :=
  match c with
  | .crcErr => { k with crcErr := k.crcErr + BitVec.ofNat 16 n }
  | .short => { k with short := k.short + BitVec.ofNat 16 n }
  | .overrun => { k with overrun := k.overrun + BitVec.ofNat 16 n }
  | .rejSent => { k with rejSent := k.rejSent + BitVec.ofNat 16 n }
  | .retx => { k with retx := k.retx + BitVec.ofNat 16 n }
  | .winDiscard => { k with winDiscard := k.winDiscard + BitVec.ofNat 16 n }
  | .notUpDrop => { k with notUpDrop := k.notUpDrop + BitVec.ofNat 16 n }
  | .badNr => { k with badNr := k.badNr + BitVec.ofNat 16 n }

/-- count(CNT_x). -/
def count (c : Counter) (s : State) : State := { s with cnt := addCounter c 1 s.cnt }

/-! ### Timers (45_timers.md R261) -/

/-- arm_timer(LT, n). -/
def armLT (n : U16) (s : State) : State := { s with lt := { armed := true, cnt := n } }

/-- arm_timer(RT, n). -/
def armRT (n : U16) (s : State) : State := { s with rt := { armed := true, cnt := n } }

/-- cancel_timer(LT). -/
def cancelLT (s : State) : State := { s with lt := .off }

/-- cancel_timer(RT). -/
def cancelRT (s : State) : State := { s with rt := .off }

/-! ### CRC engine (40_crc.md R120 to R127) -/

/-- One bit step of R120. -/
def crcShiftReflected (c : U16) : U16 := if c.getLsbD 0 then (c >>> 1) ^^^ 0x8408 else c >>> 1

/-- One bit step of R121. -/
def crcShiftMsb (c : U16) : U16 := if c.getLsbD 15 then (c <<< 1) ^^^ 0x1021 else c <<< 1

/-- crc_step with P_CRC_VARIANT = REFLECTED_8408 (R120). -/
def crcStepReflected (c : U16) (b : Byte) : U16 := crcShiftReflected^[8] (c ^^^ b.setWidth 16)

/-- crc_step with P_CRC_VARIANT = MSB_FIRST_1021 (R121). -/
def crcStepMsb (c : U16) (b : Byte) : U16 := crcShiftMsb^[8] (c ^^^ (b.setWidth 16 <<< 8))

/-- The byte-wise form of R120 that R122 gives. -/
def crcStepAvr (c : U16) (b : Byte) : U16 :=
  let d0 : Byte := b ^^^ c.setWidth 8
  let d : Byte := d0 ^^^ (d0 <<< 4)
  (d ++ (c >>> 8).setWidth 8 : BitVec 16) ^^^ (d >>> 4).setWidth 16 ^^^ (d.setWidth 16 <<< 3)

/-- crc_step by P_CRC_VARIANT. -/
def crcStep (v : CrcVariant) (c : U16) (b : Byte) : U16 :=
  match v with
  | .reflected8408 => crcStepReflected c b
  | .msbFirst1021 => crcStepMsb c b

/-- crc_reset(X) (R123): the instance after a reset. -/
def crcResetX : Crc := { val := 0xFFFF, h1 := 0xFFFF, h2 := 0xFFFF }

/-- crc_update(X, b) (R124). -/
def crcUpdateX (v : CrcVariant) (x : Crc) (b : Byte) : Crc :=
  { val := crcStep v x.val b, h1 := x.val, h2 := x.h1 }

/-- crc_update over the bytes in order. -/
def crcFold (v : CrcVariant) (x : Crc) (bs : List Byte) : Crc := bs.foldl (crcUpdateX v) x

/-- crc_get(X) (R125). -/
def crcGetX (x : Crc) : U16 := x.val

/-- crc_get_last(X) (R126). -/
def crcGetLastX (x : Crc) : U16 := x.h2

/-! ### Stuffing and frame emission (41_frame_codec.md R140, R149) -/

/-- The frame flag (00_scope.md R7). -/
def flagByte : Byte := 0x7E

/-- The escape byte (00_scope.md R7). -/
def escByte : Byte := 0x7D

/-- The escape mask (00_scope.md R7). -/
def escMask : Byte := 0x20

/-- stuff(b) (R140). -/
def stuffByte (b : Byte) : List Byte :=
  if b = flagByte ∨ b = escByte then [escByte, b ^^^ escMask] else [b]

/-- The two FCS bytes of an FCS value in line order (20_memory.md R64). -/
def fcsBytes (o : FcsOrder) (f : U16) : List Byte :=
  match o with
  | .lsbFirst => [f.setWidth 8, (f >>> 8).setWidth 8]
  | .msbFirst => [(f >>> 8).setWidth 8, f.setWidth 8]

/-- The FCS value of an address-control-payload byte list (40_crc.md R127). -/
def fcsOf (p : Params) (body : List Byte) : U16 := (crcFold p.crcVariant crcResetX body).val ^^^ p.crcXorout

/-- The unstuffed bytes between the flags: the body, then its FCS (30_encoding.md R86, R93). -/
def frameBytes (p : Params) (body : List Byte) : List Byte := body ++ fcsBytes p.fcsOrder (fcsOf p body)

/-- A frame on the line: flag, stuffed bytes, flag (30_encoding.md R86). -/
def frameLine (p : Params) (body : List Byte) : List Byte :=
  flagByte :: ((frameBytes p body).flatMap stuffByte ++ [flagByte])

/-- emit_frame(ctrl, payload) (R149). CRC_TX is reset and folded over address, control and payload. -/
def emitFrame (ctrl : Byte) (payload : Packet) (s : State) : State :=
  let body := s.cfg.stationAddr :: ctrl :: payload
  emit ((frameLine s.cfg body).map .line) { s with crcTx := crcFold s.cfg.crcVariant crcResetX body }

/-! ### Transmit window (44_arq_window.md R220 to R224) -/

/-- WIN_SLOT[i]. -/
def slotAt (v : Vector (Option Packet) 8) (i : U3) : Option Packet := v[i.toNat]'(i.isLt)

/-- WIN_SLOT[i] <- x. -/
def setSlot (v : Vector (Option Packet) 8) (i : U3) (x : Option Packet) : Vector (Option Packet) 8 :=
  v.set i.toNat x i.isLt

/-- win_count() (R220). -/
def winCount (s : State) : Nat := (s.winTx - s.winAck).toNat

/-- win_queue(p) (R221); none is FAIL. -/
def winQueue (p : Packet) (s : State) : Option State :=
  if s.winTx + 1 = s.winAck then none
  else some { s with winSlot := setSlot s.winSlot s.winTx (some p), winTx := s.winTx + 1 }

/-- peek_index() (R222). -/
def peekIndex (s : State) : U3 := s.winTx - 1

/-- nr_valid(n) (R223). -/
def nrValid (s : State) (n : U3) : Bool := (n - s.winAck).toNat ≤ winCount s

/-- The loop of ack_up_to, run k times: release the oldest slot and advance WIN_ACK (R224). -/
def releaseN : Nat → State → State
  | 0, s => s
  | k + 1, s => releaseN k { s with winSlot := setSlot s.winSlot s.winAck none, winAck := s.winAck + 1 }

/-- ack_up_to(n) (R224); none is INVALID. The loop runs until WIN_ACK = n: (n - WIN_ACK) mod 8 times. -/
def ackUpTo (n : U3) (s : State) : Option State :=
  if nrValid s n then
    let t := releaseN (n - s.winAck).toNat s
    some (if winCount t = 0 then cancelRT t else t)
  else none

/-! ### Sending (44_arq_window.md R225 to R227, R236; 43_link_engine.md R202) -/

/-- The packet in slot i, or the free value of an empty slot (log entry 6). -/
def slotPacket (s : State) (i : U3) : Packet := (slotAt s.winSlot i).getD (Config.emptySlotPacket i)

/-- send_I(i) (R225). -/
def sendI (i : U3) (s : State) : State :=
  armRT s.cfg.tRetx { emitFrame (iCtrl i s.rxNext) (slotPacket s i) s with ackPend := false }

/-- send_S(fn, n) (R226). -/
def sendS (fn : BitVec 2) (n : U3) (s : State) : State :=
  { emitFrame (sCtrl fn n) [] s with ackPend := false }

/-- send_U(code) (R202). -/
def sendU (code : Byte) (s : State) : State := emitFrame code [] s

/-- One turn of the loop of drain for the packet p taken from IN_FIFO (R227). A FAIL of win_queue, which no
in-range parameter value allows, has no effect (R221; log entry 10). -/
def sendNew (p : Packet) (s : State) : State :=
  let t := (winQueue p s).getD s
  { sendI (peekIndex t) t with txSeq := peekIndex t + 1 }

/-- The loop of drain, at most k turns (R227). -/
def drainN : Nat → State → State
  | 0, s => s
  | k + 1, s =>
    match s.inFifo with
    | [] => s
    | p :: rest =>
      if s.link = .up ∧ winCount s < s.cfg.allowedInTransit then
        drainN k (sendNew p { s with inFifo := rest })
      else s

/-- drain() (R227): every turn takes one packet, so the loop ends after at most len(IN_FIFO) turns. -/
def drain (s : State) : State := drainN s.inFifo.length s

/-- The loop of resend_window from slot i, k turns (R236). -/
def resendN : Nat → U3 → State → State
  | 0, _, s => s
  | k + 1, i, s => resendN k (i + 1) (count .retx (sendI i s))

/-- resend_window() (R236). -/
def resendWindow (s : State) : State := resendN (winCount s) s.winAck s

/-! ### Sequence reset and link changes (43_link_engine.md R190 to R192) -/

/-- How many slots hold a packet. -/
def occupied (v : Vector (Option Packet) 8) : Nat := v.toList.countP Option.isSome

/-- seq_reset() (R190): every occupied slot is released and counted once. -/
def seqReset (s : State) : State :=
  cancelRT { s with
    txSeq := 0
    rxNext := 0
    winSlot := Vector.replicate 8 none
    winAck := 0
    winTx := 0
    ackPend := false
    cnt := addCounter .winDiscard (occupied s.winSlot) s.cnt }

/-- go_down(reason) (R191). -/
def goDown (r : LinkDownReason) (s : State) : State :=
  emit [.linkDown r] (seqReset (cancelLT { s with link := .down }))

/-- go_up() (R192). -/
def goUp (s : State) : State := drain (emit [.linkUp] { cancelLT s with link := .up })

end Sys2Proof.Machine
end

