-- ==== Sys2Proof/Machine/Flags.lean ====
section
/-!
DEFINITION. The packed registers of the register map (10_state.md R34, R35): FLAGS, WIN_OCC and CFG_MODES.
The block has no arithmetic flags.
-/

namespace Sys2Proof.Machine

/-- Bits as a register value, bit 0 first; bits not listed read 0. -/
def packBits : List Bool → Nat
  | [] => 0
  | b :: bs => b.toNat + 2 * packBits bs

/-- FLAGS, 0x0A (R35). -/
def flagsReg (s : State) : U16 :=
  BitVec.ofNat 16 (packBits [s.rxOvr, s.dispPend, s.ackPend, s.lt.armed, s.rt.armed])

/-- WIN_OCC, 0x06 (R34): bit i = 1 iff WIN_SLOT[i] != none. -/
def winOccReg (s : State) : U16 := BitVec.ofNat 16 (packBits (s.winSlot.toList.map Option.isSome))

/-- CFG_MODES, 0x36 (R34). -/
def cfgModesReg (p : Params) : U16 :=
  BitVec.ofNat 16 (packBits [p.timerPresent, p.crcVariant == .msbFirst1021, p.fcsOrder == .msbFirst,
    p.rejPolicy == .timerOnly])

end Sys2Proof.Machine
end

