-- ==== Sys2Proof/Machine/Operands.lean ====
section
/-!
DEFINITION. The operand and result forms of the commands: the numeric codes of the output stream, 16-bit
results as two data bytes (20_memory.md R65), and the register map that READ_REG's operand selects from
(10_state.md R34).
-/

namespace Sys2Proof.Machine

/-- A 16-bit result as response data, low byte first (20_memory.md R65). -/
def lowFirst (v : U16) : List Byte := [v.setWidth 8, (v >>> 8).setWidth 8]

/-- Status code values (30_encoding.md R85). -/
def statusCode : Status → Byte
  | .ok => 0x00
  | .busy => 0x01
  | .illegal => 0x02
  | .full => 0x03
  | .tooLong => 0x04
  | .badState => 0x05

/-- LINK_DOWN reason values (30_encoding.md R99). -/
def reasonCode : LinkDownReason → Byte
  | .loc => 0
  | .peerDm => 1
  | .peerDisc => 2
  | .unknownU => 3

/-- Output record tags (30_encoding.md R98). -/
def outputTag : Output → Byte
  | .line _ => 0x01
  | .resp _ _ => 0x02
  | .deliverPkt _ => 0x03
  | .deliverOob _ => 0x04
  | .linkUp => 0x05
  | .linkDown _ => 0x06

/-- LINK as READ_REG shows it (10_state.md R26). -/
def linkCode : Link → U16
  | .down => 0
  | .connecting => 1
  | .up => 2

/-- RX_STATE as READ_REG shows it (10_state.md R23). -/
def rxStateCode : RxState → U16
  | .idle => 0
  | .inFrame => 1
  | .escaping => 2

/-- The low `bits` bits of a number as a register value; bits not listed read 0 (R34). -/
def regField (bits n : Nat) : U16 := BitVec.ofNat 16 (n % 2 ^ bits)

/-- The register map (R34); none is an unmapped register number. -/
def regValue (s : State) (b : Byte) : Option U16 :=
  match b with
  | 0x00#8 => some (linkCode s.link)
  | 0x01#8 => some (s.txSeq.setWidth 16)
  | 0x02#8 => some (s.rxNext.setWidth 16)
  | 0x03#8 => some (s.winAck.setWidth 16)
  | 0x04#8 => some (s.winTx.setWidth 16)
  | 0x05#8 => some (regField 3 (winCount s))
  | 0x06#8 => some (winOccReg s)
  | 0x07#8 => some (regField 8 s.inFifo.length)
  | 0x08#8 => some (rxStateCode s.rxState)
  | 0x09#8 => some (regField 9 s.rxLen)
  | 0x0A#8 => some (flagsReg s)
  | 0x0B#8 => some s.lt.cnt
  | 0x0C#8 => some s.rt.cnt
  | 0x10#8 => some s.cnt.crcErr
  | 0x11#8 => some s.cnt.short
  | 0x12#8 => some s.cnt.overrun
  | 0x13#8 => some s.cnt.rejSent
  | 0x14#8 => some s.cnt.retx
  | 0x15#8 => some s.cnt.winDiscard
  | 0x16#8 => some s.cnt.notUpDrop
  | 0x17#8 => some s.cnt.badNr
  | 0x30#8 => some (s.cfg.stationAddr.setWidth 16)
  | 0x31#8 => some (regField 9 s.cfg.maxFrame)
  | 0x32#8 => some (regField 8 s.cfg.inFifoDepth)
  | 0x33#8 => some (regField 3 s.cfg.allowedInTransit)
  | 0x34#8 => some s.cfg.tLink
  | 0x35#8 => some s.cfg.tRetx
  | 0x36#8 => some (cfgModesReg s.cfg)
  | 0x37#8 => some s.cfg.crcXorout
  | _ => none

end Sys2Proof.Machine
end

