-- ==== Sys2Proof/Machine/Control.lean ====
section
/-!
DEFINITION. The control commands (46_control.md): NOP, SOFT_RESET, READ_REG and the reserved opcodes.
-/

namespace Sys2Proof.Machine

/-- NOP (R280). -/
def execNop (s : State) : Host.Outcome State Fault Refusal := .next (respond .ok [] s)

/-- Every state element at its reset value (10_state.md R36); the parameters, the command stream and the output
stream are not state elements (R21; 70_reset_and_hazards.md R331). -/
def softReset (s : State) : State := { State.resetWith s.cfg with input := s.input, out := s.out }

/-- SOFT_RESET (R281), accepted in every state. -/
def execSoftReset (s : State) : Host.Outcome State Fault Refusal := .next (respond .ok [] (softReset s))

/-- READ_REG b (R282). -/
def execReadReg (b : Byte) (s : State) : Host.Outcome State Fault Refusal :=
  match regValue s b with
  | none => .next (respond .illegal [] s)
  | some v => .next (respond .ok (lowFirst v) s)

/-- A reserved opcode (R283): status ILLEGAL, nothing else. -/
def execReserved (_opcode : Byte) (s : State) : Host.Outcome State Fault Refusal :=
  .next (respond .illegal [] s)

end Sys2Proof.Machine
end

