-- ==== Sys2Proof/Machine/CrcEngine.lean ====
section
/-!
DEFINITION. The host commands on CRC_H (40_crc.md R129 to R132), accepted in every state.
-/

namespace Sys2Proof.Machine

/-- CRC_RESET (R129). -/
def execCrcReset (s : State) : Host.Outcome State Fault Refusal :=
  .next (respond .ok [] { s with crcH := crcResetX })

/-- CRC_UPDATE b (R130). -/
def execCrcUpdate (b : Byte) (s : State) : Host.Outcome State Fault Refusal :=
  .next (respond .ok [] { s with crcH := crcUpdateX s.cfg.crcVariant s.crcH b })

/-- CRC_GET (R131). -/
def execCrcGet (s : State) : Host.Outcome State Fault Refusal :=
  .next (respond .ok (lowFirst (crcGetX s.crcH)) s)

/-- CRC_GET_LAST (R132). -/
def execCrcGetLast (s : State) : Host.Outcome State Fault Refusal :=
  .next (respond .ok (lowFirst (crcGetLastX s.crcH)) s)

end Sys2Proof.Machine
end

