-- ==== Sys2Proof/Machine/ArqWindow.lean ====
section
/-!
DEFINITION. The ARQ sequencer (44_arq_window.md): SUBMIT, DISPATCH_DONE, and what received I-frames and
S-frames do. A frame class emits no response of its own (log entry 9).
-/

namespace Sys2Proof.Machine

/-- SUBMIT L, d0 .. d(L-1) (R228), with L the length of the payload. -/
def execSubmit (payload : Packet) (s : State) : Host.Outcome State Fault Refusal :=
  if s.cfg.maxPayload < payload.length then .next (respond .tooLong [] s)
  else if s.inFifo.length = s.cfg.inFifoDepth then .next (respond .full [] s)
  else .next (respond .ok [] (drain { s with inFifo := s.inFifo ++ [payload] }))

/-- DISPATCH_DONE (R235). -/
def execDispatchDone (s : State) : Host.Outcome State Fault Refusal :=
  if s.dispPend then
    let t := { s with dispPend := false }
    let u := if t.ackPend ∧ t.link = .up then sendS fnRR t.rxNext t else t
    .next (respond .ok [] { u with ackPend := false })
  else .next (respond .badState [] s)

/-- RX_NEXT advances and the frame awaits its acknowledgment (R231). -/
def acceptNext (s : State) : State := { s with rxNext := s.rxNext + 1, ackPend := true }

/-- handle_I(ns, nr, payload) (R229, R230, R231). -/
def handleI (ns nr : U3) (payload : Packet) (s : State) : State :=
  if s.link ≠ .up then count .notUpDrop s
  else if ns ≠ s.rxNext then count .rejSent (sendS fnREJ s.rxNext s)
  else
    deliver (.deliverPkt payload) (drain (acceptNext ((ackUpTo nr s).getD (count .badNr s))))

/-- The checks of handle_S(fn, nr) (R232) around what the function does with a valid N(R). -/
def guardS (nr : U3) (act : State → State) (s : State) : State :=
  if s.link ≠ .up then count .notUpDrop s
  else if nrValid s nr then act s
  else count .badNr s

/-- RR and RNR with a valid N(R) (R233). -/
def ackAndDrain (nr : U3) (s : State) : State := drain ((ackUpTo nr s).getD s)

/-- REJ and SREJ with a valid N(R) (R234). -/
def ackAndResend (nr : U3) (s : State) : State :=
  let t := (ackUpTo nr s).getD s
  drain (if t.cfg.rejPolicy = .goBackN ∧ 0 < winCount t then resendWindow t else t)

/-- RR received (R232, R233). -/
def recvRr (nr : U3) (s : State) : State := guardS nr (ackAndDrain nr) s

/-- RNR received, treated as RR (R232, R233). -/
def recvRnr (nr : U3) (s : State) : State := guardS nr (ackAndDrain nr) s

/-- REJ received (R232, R234). -/
def recvRej (nr : U3) (s : State) : State := guardS nr (ackAndResend nr) s

/-- SREJ received, handled as REJ (R232, R234). -/
def recvSrej (nr : U3) (s : State) : State := guardS nr (ackAndResend nr) s

/-- handle_S(fn, nr) (R232). -/
def handleS (fn : BitVec 2) (nr : U3) (s : State) : State :=
  if fn = fnRR then recvRr nr s
  else if fn = fnRNR then recvRnr nr s
  else if fn = fnREJ then recvRej nr s
  else recvSrej nr s

/-- The frame class I. -/
def execIFrame (ns nr : U3) (_pf : Bool) (payload : Packet) (s : State) : Host.Outcome State Fault Refusal :=
  .next (handleI ns nr payload s)

/-- The frame class RR. -/
def execRr (nr : U3) (_pf : Bool) (_info : Packet) (s : State) : Host.Outcome State Fault Refusal :=
  .next (recvRr nr s)

/-- The frame class RNR. -/
def execRnr (nr : U3) (_pf : Bool) (_info : Packet) (s : State) : Host.Outcome State Fault Refusal :=
  .next (recvRnr nr s)

/-- The frame class REJ. -/
def execRej (nr : U3) (_pf : Bool) (_info : Packet) (s : State) : Host.Outcome State Fault Refusal :=
  .next (recvRej nr s)

/-- The frame class SREJ. -/
def execSrej (nr : U3) (_pf : Bool) (_info : Packet) (s : State) : Host.Outcome State Fault Refusal :=
  .next (recvSrej nr s)

end Sys2Proof.Machine
end

