-- ==== Sys2Proof/Machine/LinkEngine.lean ====
section
/-!
DEFINITION. The link engine (43_link_engine.md): CONNECT, DISCONNECT, and what each received U-frame does.
A frame class emits no response of its own: the RX_BYTE that completes the frame does (log entry 9).
-/

namespace Sys2Proof.Machine

/-- CONNECT (R193). -/
def execConnect (s : State) : Host.Outcome State Fault Refusal :=
  if s.dispPend then .next (respond .busy [] s)
  else if s.link = .up then .next (respond .badState [] s)
  else .next (respond .ok [] (armLT s.cfg.tLink (sendU codeSNRM (seqReset { s with link := .connecting }))))

/-- DISCONNECT (R194). -/
def execDisconnect (s : State) : Host.Outcome State Fault Refusal :=
  if s.dispPend then .next (respond .busy [] s)
  else if s.link = .down then .next (respond .ok [] s)
  else .next (respond .ok [] (goDown .loc (sendU codeDISC s)))

/-- SNRM received, in every link state (R196). -/
def recvSnrm (s : State) : State := goUp (sendU codeUA (seqReset s))

/-- UA received (R197). -/
def recvUa (s : State) : State := if s.link = .connecting then goUp s else s

/-- DM received (R198). -/
def recvDm (s : State) : State := if s.link = .up then goDown .peerDm s else s

/-- DISC received (R199). -/
def recvDisc (s : State) : State :=
  let t := sendU codeUA s
  if t.link = .down then t else goDown .peerDisc t

/-- UI received, in every link state (R200). -/
def recvUi (payload : Packet) (s : State) : State := deliver (.deliverOob payload) s

/-- Unknown U-frame received (R201). -/
def recvUnknownU (s : State) : State := if s.link = .up then goDown .unknownU (sendU codeDM s) else s

/-- handle_U(code, payload) (R195). -/
def handleU (code : Byte) (payload : Packet) (s : State) : State :=
  if code = codeSNRM then recvSnrm s
  else if code = codeUA then recvUa s
  else if code = codeDM then recvDm s
  else if code = codeDISC then recvDisc s
  else if code = codeUI then recvUi payload s
  else recvUnknownU s

/-- The frame class SNRM. -/
def execSnrm (_pf : Bool) (_info : Packet) (s : State) : Host.Outcome State Fault Refusal := .next (recvSnrm s)

/-- The frame class UA. -/
def execUa (_pf : Bool) (_info : Packet) (s : State) : Host.Outcome State Fault Refusal := .next (recvUa s)

/-- The frame class DM. -/
def execDm (_pf : Bool) (_info : Packet) (s : State) : Host.Outcome State Fault Refusal := .next (recvDm s)

/-- The frame class DISC. -/
def execDisc (_pf : Bool) (_info : Packet) (s : State) : Host.Outcome State Fault Refusal := .next (recvDisc s)

/-- The frame class UI. -/
def execUi (_pf : Bool) (payload : Packet) (s : State) : Host.Outcome State Fault Refusal :=
  .next (recvUi payload s)

/-- The unknown U-frame. -/
def execUUnknown (_code : Byte) (_pf : Bool) (_info : Packet) (s : State) : Host.Outcome State Fault Refusal :=
  .next (recvUnknownU s)

end Sys2Proof.Machine
end

