-- ==== Sys2Proof/Machine/FrameParser.lean ====
section
/-!
DEFINITION. The frame parser (42_frame_parser.md): what the closing flag of a received frame starts.
-/

namespace Sys2Proof.Machine

/-- The received FCS: the last two bytes of the frame, in the order of P_FCS_ORDER (R173). -/
def fcsReceived (o : FcsOrder) (frame : List Byte) : U16 :=
  let a := frame.getD (frame.length - 2) 0
  let b := frame.getD (frame.length - 1) 0
  match o with
  | .lsbFirst => (b ++ a : BitVec 16)
  | .msbFirst => (a ++ b : BitVec 16)

/-- The control byte of a frame of at least two bytes (R175). -/
def frameCtrl (frame : List Byte) : Byte := frame.getD 1 0

/-- The payload RX_BUF[2 .. n-3] of a frame of n bytes (R175). -/
def framePayload (frame : List Byte) : Packet := (frame.take (frame.length - 2)).drop 2

/-- classify(ctrl, payload) (R176). -/
def classify (ctrl : Byte) (payload : Packet) (s : State) : State :=
  if isICtrl ctrl then handleI (ctrlNs ctrl) (ctrlNr ctrl) payload s
  else if isSCtrl ctrl then handleS (ctrlFn ctrl) (ctrlNr ctrl) s
  else handleU (ctrlUCode ctrl) payload s

/-- frame_complete() (R170 to R175). The frame's bytes are read only after the overrun and length checks. -/
def frameComplete (s : State) : Except Fault State :=
  if s.rxOvr then .ok (count .overrun s)
  else if s.rxLen < 4 then .ok (count .short s)
  else
    match rxFrame s with
    | .error f => .error f
    | .ok frame =>
      if fcsReceived s.cfg.fcsOrder frame ≠ crcGetLastX s.crcRx ^^^ s.cfg.crcXorout then .ok (count .crcErr s)
      else .ok (classify (frameCtrl frame) (framePayload frame) s)

end Sys2Proof.Machine
end

