-- ==== Sys2Proof/Machine/FrameCodec.lean ====
section
/-!
DEFINITION. The frame codec's commands (41_frame_codec.md): STUFF, and RX_BYTE with the receive state machine.
-/

namespace Sys2Proof.Machine

/-- STUFF b (R141). -/
def execStuff (b : Byte) (s : State) : Host.Outcome State Fault Refusal :=
  .next (respond .ok (BitVec.ofNat 8 (stuffByte b).length :: stuffByte b) s)

/-- rx_open() (R147). -/
def rxOpen (s : State) : State := { s with rxLen := 0, rxOvr := false, crcRx := crcResetX }

/-- rx_store(b) (R148). -/
def rxStore (b : Byte) (s : State) : State :=
  if s.rxLen < s.cfg.maxFrame then
    { rxWrite s.rxLen b s with rxLen := s.rxLen + 1, crcRx := crcUpdateX s.cfg.crcVariant s.crcRx b }
  else { s with rxOvr := true }

/-- rx_idle(b) (R144). -/
def rxIdle (b : Byte) (s : State) : State :=
  if b = flagByte then { rxOpen s with rxState := .inFrame } else s

/-- rx_inframe(b) (R145). -/
def rxInFrame (b : Byte) (s : State) : Except Fault State :=
  if b = escByte then .ok { s with rxState := .escaping }
  else if b = flagByte then
    if 0 < s.rxLen then frameComplete { s with rxState := .idle } else .ok (rxOpen s)
  else .ok (rxStore b s)

/-- rx_escaping(b) (R146). -/
def rxEscaping (b : Byte) (s : State) : State :=
  if b = escByte then s else { rxStore (b ^^^ escMask) s with rxState := .inFrame }

/-- The receive state machine on one line byte (R143). -/
def rxAccept (b : Byte) (s : State) : Except Fault State :=
  match s.rxState with
  | .idle => .ok (rxIdle b s)
  | .inFrame => rxInFrame b s
  | .escaping => .ok (rxEscaping b s)

/-- RX_BYTE b (R143). -/
def execRxByte (b : Byte) (s : State) : Host.Outcome State Fault Refusal :=
  if s.dispPend then .next (respond .busy [] s)
  else
    match rxAccept b s with
    | .ok t => .next (respond .ok [] t)
    | .error f => .fault f

end Sys2Proof.Machine
end

