-- ==== Sys2Proof/Machine/Timers.lean ====
section
/-!
DEFINITION. TICK and the two timer expiries (45_timers.md R262 to R266).
-/

namespace Sys2Proof.Machine

/-- link_expiry() (R263). -/
def linkExpiry (s : State) : State :=
  if s.link = .connecting then armLT s.cfg.tLink (sendU codeSNRM s) else s

/-- retx_expiry() (R264). -/
def retxExpiry (s : State) : State :=
  if s.link = .up ∧ 0 < winCount s then count .retx (sendI s.winAck s) else s

/-- The service of LT in one TICK (R262). A count of 0 while armed, which no run reaches, wraps (log entry 8). -/
def tickLT (s : State) : State :=
  if s.lt.armed then
    if s.lt.cnt - 1 = 0 then linkExpiry { s with lt := .off }
    else { s with lt := { armed := true, cnt := s.lt.cnt - 1 } }
  else s

/-- The service of RT in one TICK (R262), after LT's (R266). -/
def tickRT (s : State) : State :=
  if s.rt.armed then
    if s.rt.cnt - 1 = 0 then retxExpiry { s with rt := .off }
    else { s with rt := { armed := true, cnt := s.rt.cnt - 1 } }
  else s

/-- TICK (R262); without a timer nothing counts (R265). -/
def execTick (s : State) : Host.Outcome State Fault Refusal :=
  if s.dispPend then .next (respond .busy [] s)
  else if s.cfg.timerPresent then .next (respond .ok [] (tickRT (tickLT s)))
  else .next (respond .ok [] s)

end Sys2Proof.Machine
end

