-- ==== Sys2Proof/Machine/Dispatch.lean ====
section
/-!
DEFINITION. One arm per instruction. The first fifteen are commands; the last eleven are the frame classes
that RX_BYTE runs when a frame completes.
-/

namespace Sys2Proof.Machine

def exec (i : Instr) (s : State) : Host.Outcome State Fault Refusal :=
  match i with
  | .nop => Sys2Proof.Machine.execNop s
  | .softReset => Sys2Proof.Machine.execSoftReset s
  | .readReg b => Sys2Proof.Machine.execReadReg b s
  | .crcReset => Sys2Proof.Machine.execCrcReset s
  | .crcUpdate b => Sys2Proof.Machine.execCrcUpdate b s
  | .crcGet => Sys2Proof.Machine.execCrcGet s
  | .crcGetLast => Sys2Proof.Machine.execCrcGetLast s
  | .rxByte b => Sys2Proof.Machine.execRxByte b s
  | .stuff b => Sys2Proof.Machine.execStuff b s
  | .connect => Sys2Proof.Machine.execConnect s
  | .disconnect => Sys2Proof.Machine.execDisconnect s
  | .submit payload => Sys2Proof.Machine.execSubmit payload s
  | .dispatchDone => Sys2Proof.Machine.execDispatchDone s
  | .tick => Sys2Proof.Machine.execTick s
  | .reserved opcode => Sys2Proof.Machine.execReserved opcode s
  | .iFrame ns nr pf payload => Sys2Proof.Machine.execIFrame ns nr pf payload s
  | .rr nr pf info => Sys2Proof.Machine.execRr nr pf info s
  | .rnr nr pf info => Sys2Proof.Machine.execRnr nr pf info s
  | .rej nr pf info => Sys2Proof.Machine.execRej nr pf info s
  | .srej nr pf info => Sys2Proof.Machine.execSrej nr pf info s
  | .snrm pf info => Sys2Proof.Machine.execSnrm pf info s
  | .ua pf info => Sys2Proof.Machine.execUa pf info s
  | .dm pf info => Sys2Proof.Machine.execDm pf info s
  | .disc pf info => Sys2Proof.Machine.execDisc pf info s
  | .ui pf payload => Sys2Proof.Machine.execUi pf payload s
  | .uUnknown code pf info => Sys2Proof.Machine.execUUnknown code pf info s

end Sys2Proof.Machine
end

