-- ==== Sys2Proof/Machine/Step.lean ====
section
/-!
DEFINITION. One step: read the next whole command of the command stream and run it (30_encoding.md R80;
20_memory.md R68; 70_reset_and_hazards.md R338, R341). The block has no program counter (10_state.md R21): the
place of the next command is the head of input (log entry 2).
-/

namespace Sys2Proof.Machine

/-- One step of the block. -/
def step (s : State) : Host.Outcome State Fault Refusal :=
  match decode s.input with
  | .ok (i, rest) => exec i { s with input := rest }
  | .error .noCommand => .refused .commandStreamEnded
  | .error _ => .refused .incompleteCommand

/-- s with one opcode-table instruction put at the head of its command stream: the host issues it next. -/
def State.withFetchWord (s : State) (nbits w : Nat) : State :=
  { s with input := tableCommand nbits w ++ s.input }

end Sys2Proof.Machine
end

