-- ==== Sys2Proof/Safety.lean ====
section
/-!
DEFINITION. What a safe run is, in the terms the statements use: the invariants of 10_state.md R37 with the
ranges of R24, R28 and R29, runs of several instructions, and the frame a closing flag completes.
-/

namespace Sys2Proof.Machine

/-- RX_BUF, RX_LEN, RX_OVR and CRC_RX. -/
structure State.RxInv (s : State) : Prop where
  /-- RX_BUF is in canonical form. -/
  canonical : Memory.wf s.rxBuf = true
  /-- RX_BUF holds no byte outside its addresses (20_memory.md R60). -/
  addresses : ∀ c ∈ s.rxBuf, c.1 < s.cfg.maxFrame
  /-- 10_state.md R24 -/
  length : s.rxLen ≤ s.cfg.maxFrame
  /-- Every byte below RX_LEN has been written (41_frame_codec.md R147, R148). -/
  written : ∀ a < s.rxLen, (Memory.read s.rxBuf a).isSome = true
  /-- CRC_RX has run over exactly those bytes (42_frame_parser.md R174). -/
  crc : s.crcRx = crcFold s.cfg.crcVariant crcResetX ((List.range s.rxLen).map (rxRead s))
  /-- A byte is dropped only from a full buffer (10_state.md R25). -/
  overrun : s.rxOvr = true → s.rxLen = s.cfg.maxFrame

/-- The window and the FIFO. -/
structure State.WindowInv (s : State) : Prop where
  /-- 10_state.md R37 item 1 -/
  txSeq : s.txSeq = s.winTx
  /-- 10_state.md R37 item 2 -/
  count : winCount s ≤ s.cfg.allowedInTransit
  /-- 10_state.md R37 item 3 -/
  slots : ∀ i : U3, (slotAt s.winSlot i).isSome = true ↔ (i - s.winAck).toNat < winCount s
  /-- A packet in flight fits a frame (00_scope.md R11). -/
  slotLength : ∀ i : U3, ∀ p ∈ slotAt s.winSlot i, p.length ≤ s.cfg.maxPayload
  /-- 10_state.md R29 -/
  fifo : s.inFifo.length ≤ s.cfg.inFifoDepth
  /-- A waiting packet fits a frame (00_scope.md R11). -/
  fifoLength : ∀ p ∈ s.inFifo, p.length ≤ s.cfg.maxPayload

/-- The timers. -/
structure State.TimerInv (s : State) : Prop where
  /-- 10_state.md R37 item 4 -/
  lt : s.lt.armed = true → s.link = .connecting
  /-- 10_state.md R37 item 5 -/
  rt : s.rt.armed = true → s.link = .up ∧ 0 < winCount s
  /-- An armed timer has ticks left, an idle one none (45_timers.md R261, R262). -/
  ltCount : s.lt.armed = true ↔ s.lt.cnt ≠ 0
  /-- An armed timer has ticks left, an idle one none (45_timers.md R261, R262). -/
  rtCount : s.rt.armed = true ↔ s.rt.cnt ≠ 0

/-- The invariant of every run of a block whose parameters are in range. -/
structure State.Inv (s : State) : Prop where
  /-- 00_scope.md R7 -/
  params : s.cfg.InRange
  rx : s.RxInv
  window : s.WindowInv
  timers : s.TimerInv
  /-- 10_state.md R37 item 6 -/
  handshake : s.ackPend = true → s.dispPend = true ∧ s.link = .up
  /-- 10_state.md R37 item 7 -/
  drained : s.link = .up → s.inFifo ≠ [] → winCount s = s.cfg.allowedInTransit

/-- Instructions run one after another, stopping at the first fault or refusal. -/
def runAll : List Instr → State → Host.Outcome State Fault Refusal
  | [], s => .next s
  | i :: is, s =>
    match exec i s with
    | .next t => runAll is t
    | .fault f => .fault f
    | .refused r => .refused r

/-- The frame class of the bytes in RX_BUF[0 .. RX_LEN-1] (42_frame_parser.md R175, R176). -/
def bufferedFrame (s : State) : Instr :=
  decodeFrame (rxRead s 1) ((List.range (s.rxLen - 4)).map fun i => rxRead s (i + 2))

/-- The FCS value of the frame in RX_BUF: its last two bytes in the order of P_FCS_ORDER (42_frame_parser.md
R173). -/
def bufferedFcs (s : State) : U16 :=
  match s.cfg.fcsOrder with
  | .lsbFirst => rxRead s (s.rxLen - 1) ++ rxRead s (s.rxLen - 2)
  | .msbFirst => rxRead s (s.rxLen - 2) ++ rxRead s (s.rxLen - 1)

/-- The buffered frame passes the checks of frame_complete: no overrun, long enough, the FCS matches
(42_frame_parser.md R171, R172, R174). -/
abbrev State.FramePasses (s : State) : Prop :=
  s.rxOvr = false ∧ 4 ≤ s.rxLen ∧ bufferedFcs s = s.crcRx.h2 ^^^ s.cfg.crcXorout

/-- The LINE records of emit_frame(ctrl, payload) (41_frame_codec.md R149). -/
def frameOut (p : Params) (ctrl : Byte) (payload : Packet) : List Output :=
  (frameLine p (p.stationAddr :: ctrl :: payload)).map .line

/-- CRC_TX after emit_frame(ctrl, payload) (41_frame_codec.md R149). -/
def frameCrc (p : Params) (ctrl : Byte) (payload : Packet) : Crc :=
  crcFold p.crcVariant crcResetX (p.stationAddr :: ctrl :: payload)

/-- The LINE records of I-frames that carry these packets with N(S) = i, i + 1, ... and this N(R)
(44_arq_window.md R225). -/
def iFramesOut (p : Params) (nr : U3) : U3 → List Packet → List Output
  | _, [] => []
  | i, q :: qs => frameOut p (iCtrl i nr) q ++ iFramesOut p nr (i + 1) qs

/-- What seq_reset leaves (43_link_engine.md R190), written field by field. -/
def seqCleared (s : State) : State := { s with
  txSeq := 0
  rxNext := 0
  winSlot := Vector.replicate 8 none
  winAck := 0
  winTx := 0
  rt := { armed := false, cnt := 0 }
  ackPend := false
  cnt := { s.cnt with
    winDiscard := s.cnt.winDiscard + BitVec.ofNat 16 (s.winSlot.toList.filter Option.isSome).length } }

/-- s and t differ at most in what RX_BUF holds at and above RX_LEN (10_state.md R24, R36). -/
def SameObserved (s t : State) : Prop :=
  t = { s with rxBuf := t.rxBuf } ∧ ∀ a < s.rxLen, rxRead t a = rxRead s a

/-- The status 60_exceptions.md R302 gives each command, refusals in the priority of R303; a frame class has
none. -/
def statusOf (s : State) : Instr → Option Status
  | .nop | .softReset | .stuff _ | .crcReset | .crcUpdate _ | .crcGet | .crcGetLast => some .ok
  | .readReg b =>
    some (if b ≤ 0x0C ∨ (0x10 ≤ b ∧ b ≤ 0x17) ∨ (0x30 ≤ b ∧ b ≤ 0x37) then .ok else .illegal)
  | .rxByte _ | .tick | .disconnect => some (if s.dispPend then .busy else .ok)
  | .connect => some (if s.dispPend then .busy else if s.link = .up then .badState else .ok)
  | .submit p =>
    some (if s.cfg.maxPayload < p.length then .tooLong
      else if s.inFifo.length = s.cfg.inFifoDepth then .full else .ok)
  | .dispatchDone => some (if s.dispPend then .ok else .badState)
  | .reserved _ => some .illegal
  | .iFrame .. | .rr .. | .rnr .. | .rej .. | .srej .. | .snrm .. | .ua .. | .dm .. | .disc .. | .ui ..
  | .uUnknown .. => none

/-- The record is a response. -/
def isResp : Output → Bool
  | .resp .. => true
  | .line _ | .deliverPkt _ | .deliverOob _ | .linkUp | .linkDown _ => false

/-- LINK after an instruction, by the transition table of 43_link_engine.md R203; RX_BYTE as far as it
completes no frame. -/
def linkAfter (s : State) : Instr → Link
  | .connect => if s.dispPend = false ∧ s.link ≠ .up then .connecting else s.link
  | .disconnect => if s.dispPend then s.link else .down
  | .softReset => .down
  | .snrm .. => .up
  | .ua .. => if s.link = .connecting then .up else s.link
  | .dm .. | .uUnknown .. => if s.link = .up then .down else s.link
  | .disc .. => .down
  | .nop | .readReg _ | .crcReset | .crcUpdate _ | .crcGet | .crcGetLast | .rxByte _ | .stuff _ | .submit _
  | .dispatchDone | .tick | .reserved _ | .iFrame .. | .rr .. | .rnr .. | .rej .. | .srej .. | .ui .. => s.link

/-- The register map of 10_state.md R34 and R35 as (number, value), each value the number its bits spell. -/
def registerTable (s : State) : List (Byte × Nat) :=
  ([(0x00, match s.link with | .down => 0 | .connecting => 1 | .up => 2),
    (0x01, s.txSeq.toNat), (0x02, s.rxNext.toNat), (0x03, s.winAck.toNat), (0x04, s.winTx.toNat),
    (0x05, (s.winTx - s.winAck).toNat),
    (0x06, ((List.finRange 8).map fun i => if (s.winSlot[i]).isSome then 2 ^ i.val else 0).sum),
    (0x07, s.inFifo.length),
    (0x08, match s.rxState with | .idle => 0 | .inFrame => 1 | .escaping => 2),
    (0x09, s.rxLen),
    (0x0A, s.rxOvr.toNat + 2 * s.dispPend.toNat + 4 * s.ackPend.toNat + 8 * s.lt.armed.toNat +
      16 * s.rt.armed.toNat),
    (0x0B, s.lt.cnt.toNat), (0x0C, s.rt.cnt.toNat)] : List (Byte × Nat)) ++
  ([(0x10, s.cnt.crcErr.toNat), (0x11, s.cnt.short.toNat), (0x12, s.cnt.overrun.toNat),
    (0x13, s.cnt.rejSent.toNat), (0x14, s.cnt.retx.toNat), (0x15, s.cnt.winDiscard.toNat),
    (0x16, s.cnt.notUpDrop.toNat), (0x17, s.cnt.badNr.toNat)] : List (Byte × Nat)) ++
  ([(0x30, s.cfg.stationAddr.toNat), (0x31, s.cfg.maxFrame), (0x32, s.cfg.inFifoDepth),
    (0x33, s.cfg.allowedInTransit), (0x34, s.cfg.tLink.toNat), (0x35, s.cfg.tRetx.toNat),
    (0x36, s.cfg.timerPresent.toNat + 2 * (s.cfg.crcVariant == .msbFirst1021).toNat +
      4 * (s.cfg.fcsOrder == .msbFirst).toNat + 8 * (s.cfg.rejPolicy == .timerOnly).toNat),
    (0x37, s.cfg.crcXorout.toNat)] : List (Byte × Nat))

/-- The state the outcome holds, if it is a next state. -/
def nextState? : Host.Outcome State Fault Refusal → Option State
  | .next t => some t
  | .fault _ => none
  | .refused _ => none

end Sys2Proof.Machine
end

