-- ==== Sys2Proof/Certificates/Slice0/Obligations.lean ====
section
/-!
DEFINITION. The statements for the provers, from the numbered rules of spec/. A next state is written as a
record update of the state before, so each equation is also the instruction's frame: every field it does not
name, all of RX_BUF among them, is unchanged.
-/

open Sys2Proof Sys2Proof.Machine

/-! ### Encoding -/

/-- Every well-formed command, with every operand, decodes to itself whatever follows it (30_encoding.md R81,
R82, R83). -/
def Obligations.CommandsDecodeToThemselves : Prop :=
  ∀ (i : Instr) (rest : List Byte), i.wf = true → i.isFrame = false →
    decode (encode i ++ rest) = .ok (i, rest)

/-- Every well-formed frame class, with every field, decodes to itself from its control byte and the bytes after
it (30_encoding.md R88 to R91). -/
def Obligations.FramesDecodeToThemselves : Prop :=
  ∀ i : Instr, i.wf = true → i.isFrame = true →
    ∃ ctrl info, encode i = ctrl :: info ∧ decodeFrame ctrl info = i

/-- What the command decoder reads is well formed, is a command, and encodes back to the bytes it took. -/
def Obligations.DecodedCommandsReencode : Prop :=
  ∀ (bytes rest : List Byte) (i : Instr), decode bytes = .ok (i, rest) →
    i.wf = true ∧ i.isFrame = false ∧ encode i ++ rest = bytes

/-- What the frame decoder reads encodes back to the control byte and the bytes after it. -/
def Obligations.DecodedFramesReencode : Prop :=
  ∀ (ctrl : Byte) (info : Packet),
    (decodeFrame ctrl info).isFrame = true ∧ encode (decodeFrame ctrl info) = ctrl :: info ∧
    (info.length ≤ 255 → (decodeFrame ctrl info).wf = true)

/-- Words written out from 30_encoding.md R82, R83 and R88 to R91 decode to what they stand for. -/
def Obligations.SpecWordsDecode : Prop :=
  decode [0x02, 0x31] = .ok (.readReg 0x31, []) ∧ decode [0x11, 0x7D, 0x12] = .ok (.crcUpdate 0x7D, [0x12]) ∧
  decode [0x20, 0x7E] = .ok (.rxByte 0x7E, []) ∧ decode [0x30] = .ok (.connect, []) ∧
  decode [0x32, 0x02, 0xAA, 0xBB, 0x33] = .ok (.submit [0xAA, 0xBB], [0x33]) ∧
  decode [0x40] = .ok (.tick, []) ∧ decode [0xFF, 0x00] = .ok (.reserved 0xFF, [0x00]) ∧
  decodeFrame 0x2E [0x01] = .iFrame 7 1 false [0x01] ∧ decodeFrame 0x29 [] = .rej 1 false [] ∧
  decodeFrame 0x93 [] = .snrm true [] ∧ decodeFrame 0x2F [] = .uUnknown 0x2F false []

/-- A command's length follows from its opcode alone, and the decoder refuses a command whose bytes are not all
present (30_encoding.md R97). -/
def Obligations.CommandLengthFromOpcode : Prop :=
  (∀ (op : Byte) (rest : List Byte), op ∉ ([0x02, 0x11, 0x20, 0x21, 0x32] : List Byte) →
    ∃ i, decode (op :: rest) = .ok (i, rest)) ∧
  (∀ op ∈ ([0x02, 0x11, 0x20, 0x21] : List Byte), decode [op] = .error (.missingOperand op) ∧
    ∀ (b : Byte) (rest : List Byte), ∃ i, decode (op :: b :: rest) = .ok (i, rest)) ∧
  decode [0x32] = .error (.missingOperand 0x32) ∧
  (∀ (len : Byte) (rest : List Byte),
    (rest.length < len.toNat →
      decode (0x32 :: len :: rest) = .error (.missingPayload len.toNat rest.length)) ∧
    (len.toNat ≤ rest.length →
      decode (0x32 :: len :: rest) = .ok (.submit (rest.take len.toNat), rest.drop len.toNat)))

/-- Every control byte falls in exactly one class, chosen by its bits 0 and 1: I-frame, S-frame or U-frame
(30_encoding.md R88). -/
def Obligations.ControlByteClasses : Prop :=
  ∀ (c : Byte) (info : Packet),
    (c &&& 0x01 = 0x00 → ∃ ns nr pf, decodeFrame c info = .iFrame ns nr pf info) ∧
    (c &&& 0x03 = 0x01 → ∃ nr pf, decodeFrame c info ∈
      [Instr.rr nr pf info, Instr.rnr nr pf info, Instr.rej nr pf info, Instr.srej nr pf info]) ∧
    (c &&& 0x03 = 0x03 → ∃ pf code, decodeFrame c info ∈
      [Instr.snrm pf info, Instr.ua pf info, Instr.dm pf info, Instr.disc pf info, Instr.ui pf info,
       Instr.uUnknown code pf info]) ∧
    ([c &&& 0x01 == 0x00, c &&& 0x03 == 0x01, c &&& 0x03 == 0x03].filter id).length = 1

/-- The control bytes the block sends: their value, their fields, and P/F = 0 (30_encoding.md R89, R90). -/
def Obligations.SentControlBytes : Prop :=
  (∀ ns nr : U3, (iCtrl ns nr).toNat = nr.toNat * 32 + ns.toNat * 2 ∧ ctrlNs (iCtrl ns nr) = ns ∧
    ctrlNr (iCtrl ns nr) = nr ∧ ctrlPf (iCtrl ns nr) = false) ∧
  (∀ (fn : BitVec 2) (nr : U3), (sCtrl fn nr).toNat = nr.toNat * 32 + fn.toNat * 4 + 1 ∧
    ctrlFn (sCtrl fn nr) = fn ∧ ctrlNr (sCtrl fn nr) = nr ∧ ctrlPf (sCtrl fn nr) = false)

/-! ### Step -/

/-- A step runs the command at the head of the command stream on the state with its bytes taken; without a
whole command it is refused. The command stream as a field and these refusals are the model's form (log entries 2
and 4). -/
def Obligations.StepRunsDecodedInstruction : Prop :=
  (∀ (s : State) (i : Instr) (rest : List Byte), decode s.input = .ok (i, rest) →
    step s = exec i { s with input := rest }) ∧
  (∀ s : State, s.input = [] → step s = .refused .commandStreamEnded) ∧
  (∀ (s : State) (e : DecodeRefusal), s.input ≠ [] → decode s.input = .error e →
    step s = .refused .incompleteCommand)

/-- withFetchWord makes the next step run what the command port reads from that word. It is the model's own function
(log entry 2), and it reads a word of one of the eleven frame rows as the command or reserved opcode that byte is at
the command port, not as the frame class: 0x83 at 8 bits runs reserved 0x83 (log entry 9). -/
def Obligations.FetchWordRunsItsRow : Prop :=
  ∀ (s : State) (nbits w : Nat), ∃ i, decodeTableWord nbits w = some i ∧
    step (s.withFetchWord nbits w) = exec i s

/-! ### CRC engine -/

/-- The byte-wise form of 40_crc.md R122 and the bit steps of R120 agree. The spec marks this as its own
inference: "It gives the same result as rule R120 for every c and b." -/
def Obligations.ReflectedStepIsByteWise : Prop :=
  ∀ (c : U16) (b : Byte), crcStepAvr c b = crcStepReflected c b

/-- crc_update and its history: H2 excludes the last two bytes (40_crc.md R124). -/
def Obligations.CrcHistoryHoldsEarlierValues : Prop :=
  ∀ v : CrcVariant,
    (∀ (x : Crc) (b : Byte), crcUpdateX v x b = { val := crcStep v x.val b, h1 := x.val, h2 := x.h1 }) ∧
    (∀ (bs : List Byte) (b1 b2 : Byte),
      (crcFold v crcResetX (bs ++ [b1, b2])).val = (bs ++ [b1, b2]).foldl (crcStep v) 0xFFFF ∧
      (crcFold v crcResetX (bs ++ [b1, b2])).h2 = bs.foldl (crcStep v) 0xFFFF) ∧
    (∀ b : Byte, (crcFold v crcResetX [b]).h2 = 0xFFFF)

/-- Under the default CRC variant, XOR-out and FCS order, folding a frame with its own FCS leaves 0. The spec
marks this as its own inference (40_crc.md R128): "folding a frame's own FCS bytes into `CRC_RX` leaves
`CRC_RX.VAL = 0x0000`". -/
def Obligations.FrameResidueIsZero : Prop :=
  ∀ (p : Params) (body : List Byte), p.crcVariant = .reflected8408 → p.crcXorout = 0 →
    p.fcsOrder = .lsbFirst → (crcFold p.crcVariant crcResetX (frameBytes p body)).val = 0

/-- A frame passes the receiver's check, and with any single bit of its address, control, payload or FCS flipped
it fails, for every parameter value. The spec marks this as its own inference (40_crc.md R128): "A single flipped bit
anywhere in the address, control, payload or FCS bytes changes the check result". -/
def Obligations.SingleBitErrorsDetected : Prop :=
  ∀ (p : Params) (body : List Byte),
    fcsReceived p.fcsOrder (frameBytes p body) =
      (crcFold p.crcVariant crcResetX (frameBytes p body)).h2 ^^^ p.crcXorout ∧
    ∀ (i k : Nat) (b : Byte), (frameBytes p body)[i]? = some b → k < 8 →
      let bad := (frameBytes p body).set i (b ^^^ (1#8 <<< k))
      fcsReceived p.fcsOrder bad ≠ (crcFold p.crcVariant crcResetX bad).h2 ^^^ p.crcXorout

/-- The four commands on CRC_H: their encoding, their whole effect in every state (40_crc.md R129 to R132), and the
check values of the examples of R130 and R132, which the spec marks as its own inference: the nine updates "give
`CRC_H.VAL = 0x6F91` under `REFLECTED_8408` and `0x29B1` under `MSB_FIRST_1021`"; "CRC_GET_LAST returns
`RESP(OK, [EB B9])`, which is the CRC of `FF 83` (0xB9EB), and CRC_GET returns `[00 00]`". -/
def Obligations.CrcCommandResults : Prop :=
  (∀ rest : List Byte, decode (0x10 :: rest) = .ok (.crcReset, rest) ∧
    (∀ b : Byte, decode (0x11 :: b :: rest) = .ok (.crcUpdate b, rest)) ∧
    decode (0x12 :: rest) = .ok (.crcGet, rest) ∧ decode (0x13 :: rest) = .ok (.crcGetLast, rest)) ∧
  (∀ s : State, exec .crcReset s =
    .next { s with crcH := { val := 0xFFFF, h1 := 0xFFFF, h2 := 0xFFFF }, out := s.out ++ [.resp .ok []] }) ∧
  (∀ (s : State) (b : Byte), exec (.crcUpdate b) s =
    .next { s with
      crcH := { val := crcStep s.cfg.crcVariant s.crcH.val b, h1 := s.crcH.val, h2 := s.crcH.h1 }
      out := s.out ++ [.resp .ok []] }) ∧
  (∀ s : State, exec .crcGet s = .next { s with
    out := s.out ++ [.resp .ok [s.crcH.val.extractLsb' 0 8, s.crcH.val.extractLsb' 8 8]] }) ∧
  (∀ s : State, exec .crcGetLast s = .next { s with
    out := s.out ++ [.resp .ok [s.crcH.h2.extractLsb' 0 8, s.crcH.h2.extractLsb' 8 8]] }) ∧
  crcStep .reflected8408 0xFFFF 0x00 = 0x0F87 ∧
  (crcFold .reflected8408 crcResetX [0x31, 0x32, 0x33, 0x34, 0x35, 0x36, 0x37, 0x38, 0x39]).val = 0x6F91 ∧
  (crcFold .msbFirst1021 crcResetX [0x31, 0x32, 0x33, 0x34, 0x35, 0x36, 0x37, 0x38, 0x39]).val = 0x29B1 ∧
  crcFold .reflected8408 crcResetX [0xFF, 0x83, 0xEB, 0xB9] = { val := 0x0000, h1 := 0x00B9, h2 := 0xB9EB }

/-! ### Frame codec -/

/-- STUFF answers the stuffed byte, its length first, and changes nothing else; only the flag and the escape are
escaped (41_frame_codec.md R140, R141). -/
def Obligations.StuffResult : Prop :=
  (∀ b : Byte, b ≠ 0x7E → b ≠ 0x7D → stuffByte b = [b]) ∧
  stuffByte 0x7E = [0x7D, 0x5E] ∧ stuffByte 0x7D = [0x7D, 0x5D] ∧
  (∀ (b : Byte) (rest : List Byte), decode (0x21 :: b :: rest) = .ok (.stuff b, rest)) ∧
  (∀ (s : State) (b : Byte), exec (.stuff b) s = .next { s with
    out := s.out ++ [.resp .ok (BitVec.ofNat 8 (stuffByte b).length :: stuffByte b)] })

/-- A line byte in Idle: the flag opens a frame, every other byte is dropped (41_frame_codec.md R144, R147). -/
def Obligations.IdleByteResult : Prop :=
  ∀ s : State, s.rxState = .idle → s.dispPend = false →
    exec (.rxByte 0x7E) s = .next { s with
      rxState := .inFrame, rxLen := 0, rxOvr := false
      crcRx := { val := 0xFFFF, h1 := 0xFFFF, h2 := 0xFFFF }, out := s.out ++ [.resp .ok []] } ∧
    ∀ b : Byte, b ≠ 0x7E → exec (.rxByte b) s = .next { s with out := s.out ++ [.resp .ok []] }

/-- A line byte in InFrame: the escape, the flag with an empty and with a filled buffer, and any other byte,
stored at RX_LEN or dropped as an overrun (41_frame_codec.md R145, R148). -/
def Obligations.InFrameByteResult : Prop :=
  ∀ s : State, s.rxState = .inFrame → s.dispPend = false →
    exec (.rxByte 0x7D) s = .next { s with rxState := .escaping, out := s.out ++ [.resp .ok []] } ∧
    (s.rxLen = 0 → exec (.rxByte 0x7E) s = .next { s with
      rxLen := 0, rxOvr := false
      crcRx := { val := 0xFFFF, h1 := 0xFFFF, h2 := 0xFFFF }, out := s.out ++ [.resp .ok []] }) ∧
    (0 < s.rxLen → s.rxLen ≤ s.cfg.maxFrame →
      ∃ t, frameComplete { s with rxState := .idle } = .ok t ∧
        exec (.rxByte 0x7E) s = .next { t with out := t.out ++ [.resp .ok []] }) ∧
    (∀ b : Byte, b ≠ 0x7D → b ≠ 0x7E →
      (s.rxLen < s.cfg.maxFrame → ∃ m,
        exec (.rxByte b) s = .next { s with
          rxBuf := m, rxLen := s.rxLen + 1
          crcRx := { val := crcStep s.cfg.crcVariant s.crcRx.val b, h1 := s.crcRx.val, h2 := s.crcRx.h1 }
          out := s.out ++ [.resp .ok []] } ∧
        ∀ a, Memory.read m a = if a = s.rxLen then some b else Memory.read s.rxBuf a) ∧
      (s.cfg.maxFrame ≤ s.rxLen →
        exec (.rxByte b) s = .next { s with rxOvr := true, out := s.out ++ [.resp .ok []] }))

/-- A line byte in Escaping: a second escape is consumed, any other byte, the flag too, is stored XOR 0x20 and
ends the escape (41_frame_codec.md R146). -/
def Obligations.EscapedByteResult : Prop :=
  ∀ s : State, s.rxState = .escaping → s.dispPend = false →
    exec (.rxByte 0x7D) s = .next { s with out := s.out ++ [.resp .ok []] } ∧
    (∀ b : Byte, b ≠ 0x7D →
      (s.rxLen < s.cfg.maxFrame → ∃ m,
        exec (.rxByte b) s = .next { s with
          rxState := .inFrame, rxBuf := m, rxLen := s.rxLen + 1
          crcRx := { val := crcStep s.cfg.crcVariant s.crcRx.val (b ^^^ 0x20)
                     h1 := s.crcRx.val, h2 := s.crcRx.h1 }
          out := s.out ++ [.resp .ok []] } ∧
        ∀ a, Memory.read m a = if a = s.rxLen then some (b ^^^ 0x20) else Memory.read s.rxBuf a) ∧
      (s.cfg.maxFrame ≤ s.rxLen → exec (.rxByte b) s = .next { s with
        rxState := .inFrame, rxOvr := true, out := s.out ++ [.resp .ok []] }))

/-- While a delivery is pending RX_BYTE, TICK, CONNECT and DISCONNECT are refused with BUSY and change nothing,
and no other command is (70_reset_and_hazards.md R336). -/
def Obligations.BusyWhileDispatching : Prop :=
  ∀ s : State, s.dispPend = true →
    (∀ b : Byte, exec (.rxByte b) s = .next { s with out := s.out ++ [.resp .busy []] }) ∧
    (∀ i ∈ [Instr.tick, Instr.connect, Instr.disconnect],
      exec i s = .next { s with out := s.out ++ [.resp .busy []] }) ∧
    (∀ (i : Instr) (t : State), i.isFrame = false → (∀ b, i ≠ .rxByte b) →
      i ∉ [Instr.tick, Instr.connect, Instr.disconnect] → exec i s = .next t →
      t.out.getLast? ≠ some (.resp .busy []))

/-- A closing flag drops an overrun frame, a short frame and a frame whose FCS does not match, in that order:
only its counter and RX_STATE change (42_frame_parser.md R170 to R174). -/
def Obligations.DroppedFrames : Prop :=
  ∀ s : State, s.rxState = .inFrame → s.dispPend = false → 0 < s.rxLen →
    (s.rxOvr = true → exec (.rxByte 0x7E) s = .next { s with
      rxState := .idle, cnt := { s.cnt with overrun := s.cnt.overrun + 1 }
      out := s.out ++ [.resp .ok []] }) ∧
    (s.rxOvr = false → s.rxLen < 4 → exec (.rxByte 0x7E) s = .next { s with
      rxState := .idle, cnt := { s.cnt with short := s.cnt.short + 1 }
      out := s.out ++ [.resp .ok []] }) ∧
    (s.rxOvr = false → 4 ≤ s.rxLen → s.rxLen ≤ s.cfg.maxFrame →
      bufferedFcs s ≠ s.crcRx.h2 ^^^ s.cfg.crcXorout →
      exec (.rxByte 0x7E) s = .next { s with
        rxState := .idle, cnt := { s.cnt with crcErr := s.cnt.crcErr + 1 }
        out := s.out ++ [.resp .ok []] })

/-- A closing flag on a frame that passes its checks runs the frame class its control byte decodes to, with
RX_STATE already Idle, and then responds (42_frame_parser.md R175, R176). That a frame class is an instruction is
the model's form (log entry 9). -/
def Obligations.GoodFrameRunsItsClass : Prop :=
  ∀ s : State, s.rxState = .inFrame → s.dispPend = false → s.rxOvr = false →
    4 ≤ s.rxLen → s.rxLen ≤ s.cfg.maxFrame →
    bufferedFcs s = s.crcRx.h2 ^^^ s.cfg.crcXorout →
    ∃ t, exec (bufferedFrame s) { s with rxState := .idle } = .next t ∧
      exec (.rxByte 0x7E) s = .next { t with out := t.out ++ [.resp .ok []] }

/-- The unstuffed bytes of any stuffed list of 1 to P_MAX_FRAME bytes stand in RX_BUF when the closing flag has
arrived; the empty list leaves the codec InFrame with an empty buffer. The spec marks this as its own inference
(41_frame_codec.md R142): "Then `RX_BUF[0..len(d)-1] = d`, `RX_LEN = len(d)` and `RX_STATE = Idle` when the closing
flag arrives." -/
def Obligations.StuffedBytesAreRecovered : Prop :=
  ∀ (s : State) (d : List Byte), s.rxState = .idle → s.dispPend = false → d.length ≤ s.cfg.maxFrame →
    ∃ t, runAll ((0x7E :: (d.flatMap stuffByte ++ [0x7E])).map .rxByte) s = .next t ∧
      t.rxLen = d.length ∧ (∀ i (h : i < d.length), rxRead t i = d[i]) ∧
      t.rxState = if d = [] then .inFrame else .idle

/-- Round trip: the line bytes of any frame, fed to a block with the same CRC and FCS parameters that is idle,
run exactly the frame class of its control byte and payload, whatever its address byte and its bytes
(41_frame_codec.md R149; 42_frame_parser.md R170 to R176; 30_encoding.md R87). It rests on the spec's own inference
of 41_frame_codec.md R142, the source's "Round-trip" property. -/
def Obligations.EmittedFrameIsReceived : Prop :=
  ∀ (p : Params) (s : State) (addr ctrl : Byte) (payload : Packet),
    p.crcVariant = s.cfg.crcVariant → p.crcXorout = s.cfg.crcXorout → p.fcsOrder = s.cfg.fcsOrder →
    s.rxState = .idle → s.dispPend = false → payload.length + 4 ≤ s.cfg.maxFrame →
    let body := addr :: ctrl :: payload
    ∃ (m : Memory) (t : State),
      (∀ a, Memory.read m a =
        if a < payload.length + 4 then (frameBytes p body)[a]? else Memory.read s.rxBuf a) ∧
      exec (decodeFrame ctrl payload) { s with
        rxBuf := m, rxLen := payload.length + 4, rxOvr := false
        crcRx := crcFold s.cfg.crcVariant crcResetX (frameBytes p body)
        out := s.out ++ List.replicate ((frameLine p body).length - 1) (.resp .ok []) } = .next t ∧
      runAll ((frameLine p body).map .rxByte) s = .next { t with out := t.out ++ [.resp .ok []] }

/-- emit_frame: CRC_TX and the line bytes, flag to flag, and no flag between the two (41_frame_codec.md R140, R149).
That at most two line bytes stand for each frame byte is a sentence the spec marks as its own inference (30_encoding.md
R95): "stuffing can double every byte between the flags, so a frame occupies at most `2 + 2 * P_MAX_FRAME` line
bytes". -/
def Obligations.EmittedFrameShape : Prop :=
  ∀ (s : State) (ctrl : Byte) (payload : Packet),
    let body := s.cfg.stationAddr :: ctrl :: payload
    let f : U16 := body.foldl (crcStep s.cfg.crcVariant) 0xFFFF ^^^ s.cfg.crcXorout
    let fb : List Byte := match s.cfg.fcsOrder with
      | .lsbFirst => [f.extractLsb' 0 8, f.extractLsb' 8 8]
      | .msbFirst => [f.extractLsb' 8 8, f.extractLsb' 0 8]
    let inner : List Byte :=
      (body ++ fb).flatMap fun b => if b = 0x7E ∨ b = 0x7D then [0x7D, b ^^^ 0x20] else [b]
    emitFrame ctrl payload s = { s with
      crcTx := body.foldl (crcUpdateX s.cfg.crcVariant) { val := 0xFFFF, h1 := 0xFFFF, h2 := 0xFFFF }
      out := s.out ++ (0x7E :: (inner ++ [0x7E])).map .line } ∧
    0x7E ∉ inner ∧ inner.length ≤ 2 * (payload.length + 4)

/-! ### Link engine -/

/-- CONNECT: BUSY while a delivery is pending, then BADSTATE in Up; otherwise the sequence reset, SNRM on the line,
LT armed (43_link_engine.md R193). -/
def Obligations.ConnectResult : Prop :=
  (∀ rest : List Byte, decode (0x30 :: rest) = .ok (.connect, rest)) ∧
  ∀ s : State,
    (s.dispPend = true → exec .connect s = .next { s with out := s.out ++ [.resp .busy []] }) ∧
    (s.dispPend = false → s.link = .up →
      exec .connect s = .next { s with out := s.out ++ [.resp .badState []] }) ∧
    (s.dispPend = false → s.link ≠ .up → exec .connect s = .next { seqCleared s with
      link := .connecting, crcTx := frameCrc s.cfg 0x83 [], lt := { armed := true, cnt := s.cfg.tLink }
      out := s.out ++ frameOut s.cfg 0x83 [] ++ [.resp .ok []] })

/-- DISCONNECT: BUSY while a delivery is pending; nothing in Down; otherwise DISC on the line, Down, LINK_DOWN(LOCAL)
(43_link_engine.md R194, R191). -/
def Obligations.DisconnectResult : Prop :=
  (∀ rest : List Byte, decode (0x31 :: rest) = .ok (.disconnect, rest)) ∧
  ∀ s : State,
    (s.dispPend = true → exec .disconnect s = .next { s with out := s.out ++ [.resp .busy []] }) ∧
    (s.dispPend = false → s.link = .down →
      exec .disconnect s = .next { s with out := s.out ++ [.resp .ok []] }) ∧
    (s.dispPend = false → s.link ≠ .down → exec .disconnect s = .next { seqCleared s with
      link := .down, crcTx := frameCrc s.cfg 0x43 [], lt := { armed := false, cnt := 0 }
      out := s.out ++ frameOut s.cfg 0x43 [] ++ [.linkDown .loc, .resp .ok []] })

/-- SNRM received, in every link state: sequence reset, UA, Up, LINK_UP, then drain (43_link_engine.md R196,
R192). -/
def Obligations.SnrmResult : Prop :=
  ∀ (s : State) (pf : Bool) (info : Packet), exec (.snrm pf info) s = .next (drain { seqCleared s with
    link := .up, lt := { armed := false, cnt := 0 }, crcTx := frameCrc s.cfg 0x63 []
    out := s.out ++ frameOut s.cfg 0x63 [] ++ [.linkUp] })

/-- UA received: Up, LINK_UP and drain from Connecting; nothing elsewhere (43_link_engine.md R197, R192). -/
def Obligations.UaResult : Prop :=
  ∀ (s : State) (pf : Bool) (info : Packet),
    (s.link = .connecting → exec (.ua pf info) s = .next (drain { s with
      link := .up, lt := { armed := false, cnt := 0 }, out := s.out ++ [.linkUp] })) ∧
    (s.link ≠ .connecting → exec (.ua pf info) s = .next s)

/-- DM received: Down and LINK_DOWN(PEER_DM) from Up; nothing elsewhere (43_link_engine.md R198, R191). -/
def Obligations.DmResult : Prop :=
  ∀ (s : State) (pf : Bool) (info : Packet),
    (s.link = .up → exec (.dm pf info) s = .next { seqCleared s with
      link := .down, lt := { armed := false, cnt := 0 }, out := s.out ++ [.linkDown .peerDm] }) ∧
    (s.link ≠ .up → exec (.dm pf info) s = .next s)

/-- DISC received: UA in every state; Down and LINK_DOWN(PEER_DISC) if not Down already (43_link_engine.md R199,
R191). -/
def Obligations.DiscResult : Prop :=
  ∀ (s : State) (pf : Bool) (info : Packet),
    (s.link = .down → exec (.disc pf info) s = .next { s with
      crcTx := frameCrc s.cfg 0x63 [], out := s.out ++ frameOut s.cfg 0x63 [] }) ∧
    (s.link ≠ .down → exec (.disc pf info) s = .next { seqCleared s with
      link := .down, lt := { armed := false, cnt := 0 }, crcTx := frameCrc s.cfg 0x63 []
      out := s.out ++ frameOut s.cfg 0x63 [] ++ [.linkDown .peerDisc] })

/-- UI received, in every link state: DELIVER_OOB and DISP_PEND (43_link_engine.md R200). -/
def Obligations.UiResult : Prop :=
  ∀ (s : State) (pf : Bool) (payload : Packet), exec (.ui pf payload) s = .next { s with
    dispPend := true, out := s.out ++ [.deliverOob payload] }

/-- Unknown U-frame received: DM, Down and LINK_DOWN(UNKNOWN_U) from Up; nothing elsewhere (43_link_engine.md
R201, R191). -/
def Obligations.UnknownUResult : Prop :=
  ∀ (s : State) (code : Byte) (pf : Bool) (info : Packet),
    (s.link = .up → exec (.uUnknown code pf info) s = .next { seqCleared s with
      link := .down, lt := { armed := false, cnt := 0 }, crcTx := frameCrc s.cfg 0x0F []
      out := s.out ++ frameOut s.cfg 0x0F [] ++ [.linkDown .unknownU] }) ∧
    (s.link ≠ .up → exec (.uUnknown code pf info) s = .next s)

/-- LINK changes only as the transition table says: by the instruction itself, or by the frame class that an
RX_BYTE of the closing flag completes where the frame passes its checks. The spec marks the table as its own
inference (43_link_engine.md R203): "Each row is derived from the rules it names and is not a separate rule of
behaviour." -/
def Obligations.LinkChangesOnlyByTable : Prop :=
  ∀ (i : Instr) (s t : State), exec i s = .next t →
    t.link = linkAfter s i ∨
    (i = .rxByte 0x7E ∧ s.dispPend = false ∧ s.rxState = .inFrame ∧ s.FramePasses ∧
      t.link = linkAfter s (bufferedFrame s))

/-! ### ARQ window -/

/-- ack_up_to: a valid N(R) frees exactly the slots before it and cancels RT when the window is then empty; a
second call changes nothing; an invalid N(R) is refused (44_arq_window.md R223, R224). -/
def Obligations.AckReleasesUpToNr : Prop :=
  ∀ (s : State) (n : U3),
    ((n - s.winAck).toNat ≤ (s.winTx - s.winAck).toNat → ∃ v,
      let t := { s with
        winSlot := v, winAck := n, rt := if s.winTx = n then { armed := false, cnt := 0 } else s.rt }
      ackUpTo n s = some t ∧ ackUpTo n t = some t ∧
      ∀ i : U3, slotAt v i =
        if (i - s.winAck).toNat < (n - s.winAck).toNat then none else slotAt s.winSlot i) ∧
    ((s.winTx - s.winAck).toNat < (n - s.winAck).toNat → ackUpTo n s = none)

/-- drain sends the oldest waiting packets, in order and with successive N(S), as many as the window has room for
while Up, and nothing else changes (44_arq_window.md R227, R221, R222, R225). -/
def Obligations.DrainSendsOldestFirst : Prop :=
  ∀ s : State, s.cfg.InRange →
    let k := if s.link = .up then min s.inFifo.length (s.cfg.allowedInTransit - winCount s) else 0
    (k = 0 → drain s = s) ∧
    (0 < k → ∃ v c,
      drain s = { s with
        inFifo := s.inFifo.drop k, winSlot := v, winTx := s.winTx + BitVec.ofNat 3 k
        txSeq := s.winTx + BitVec.ofNat 3 k, rt := { armed := true, cnt := s.cfg.tRetx }
        ackPend := false, crcTx := c
        out := s.out ++ iFramesOut s.cfg s.rxNext s.winTx (s.inFifo.take k) } ∧
      (∀ i : U3, slotAt v i =
        if (i - s.winTx).toNat < k then s.inFifo[(i - s.winTx).toNat]? else slotAt s.winSlot i) ∧
      (∀ q, s.inFifo[k - 1]? = some q →
        c = frameCrc s.cfg (iCtrl (s.winTx + BitVec.ofNat 3 (k - 1)) s.rxNext) q))

/-- resend_window resends every unacknowledged packet, oldest first, each with its original N(S) and the current
N(R), counts each, restarts RT, and leaves CRC_TX at the last frame's CRC (44_arq_window.md R236). -/
def Obligations.ResendWindowResendsAll : Prop :=
  ∀ (s : State) (ps : List Packet), ps.length = winCount s →
    (∀ (j : Nat) (q : Packet), ps[j]? = some q → slotAt s.winSlot (s.winAck + BitVec.ofNat 3 j) = some q) →
    (ps = [] → resendWindow s = s) ∧
    (∀ q, ps.getLast? = some q → resendWindow s = { s with
      rt := { armed := true, cnt := s.cfg.tRetx }, ackPend := false
      crcTx := frameCrc s.cfg (iCtrl (s.winAck + BitVec.ofNat 3 (ps.length - 1)) s.rxNext) q
      cnt := { s.cnt with retx := s.cnt.retx + BitVec.ofNat 16 ps.length }
      out := s.out ++ iFramesOut s.cfg s.rxNext s.winAck ps })

/-- An I-frame while not Up is counted and dropped; out of sequence it draws a REJ with the expected number and
is dropped (44_arq_window.md R229, R230). -/
def Obligations.IFrameDropped : Prop :=
  ∀ (s : State) (ns nr : U3) (pf : Bool) (p : Packet),
    (s.link ≠ .up → exec (.iFrame ns nr pf p) s =
      .next { s with cnt := { s.cnt with notUpDrop := s.cnt.notUpDrop + 1 } }) ∧
    (s.link = .up → ns ≠ s.rxNext → exec (.iFrame ns nr pf p) s = .next { s with
      crcTx := frameCrc s.cfg (sCtrl 2 s.rxNext) [], ackPend := false
      cnt := { s.cnt with rejSent := s.cnt.rejSent + 1 }
      out := s.out ++ frameOut s.cfg (sCtrl 2 s.rxNext) [] })

/-- An I-frame in sequence: its N(R) is applied, or counted where it is invalid, RX_NEXT advances, the window
drains, the payload is delivered (44_arq_window.md R231). -/
def Obligations.IFrameAccepted : Prop :=
  ∀ (s : State) (nr : U3) (pf : Bool) (p : Packet), s.link = .up →
    (∀ a, ackUpTo nr s = some a →
      let t := drain { a with rxNext := s.rxNext + 1, ackPend := true }
      exec (.iFrame s.rxNext nr pf p) s =
        .next { t with dispPend := true, out := t.out ++ [.deliverPkt p] } ∧ t.rxNext = s.rxNext + 1) ∧
    (ackUpTo nr s = none →
      let t := drain { s with
        rxNext := s.rxNext + 1, ackPend := true, cnt := { s.cnt with badNr := s.cnt.badNr + 1 } }
      exec (.iFrame s.rxNext nr pf p) s =
        .next { t with dispPend := true, out := t.out ++ [.deliverPkt p] } ∧ t.rxNext = s.rxNext + 1)

/-- An S-frame while not Up, or with an N(R) outside the window, is counted and ignored, whatever its function
(44_arq_window.md R232). -/
def Obligations.SFrameIgnored : Prop :=
  ∀ (s : State) (nr : U3) (pf : Bool) (info : Packet) (i : Instr),
    i ∈ [Instr.rr nr pf info, Instr.rnr nr pf info, Instr.rej nr pf info, Instr.srej nr pf info] →
    (s.link ≠ .up → exec i s = .next { s with cnt := { s.cnt with notUpDrop := s.cnt.notUpDrop + 1 } }) ∧
    (s.link = .up → (s.winTx - s.winAck).toNat < (nr - s.winAck).toNat →
      exec i s = .next { s with cnt := { s.cnt with badNr := s.cnt.badNr + 1 } })

/-- RR and RNR with a valid N(R): acknowledge, then drain (44_arq_window.md R233). -/
def Obligations.RrRnrResult : Prop :=
  ∀ (s a : State) (nr : U3) (pf : Bool) (info : Packet), s.link = .up → ackUpTo nr s = some a →
    exec (.rr nr pf info) s = .next (drain a) ∧ exec (.rnr nr pf info) s = .next (drain a)

/-- REJ and SREJ with a valid N(R): acknowledge, resend the window under GO_BACK_N where it is not empty, then
drain (44_arq_window.md R234). -/
def Obligations.RejSrejResult : Prop :=
  ∀ (s a : State) (nr : U3) (pf : Bool) (info : Packet), s.link = .up → ackUpTo nr s = some a →
    (s.cfg.rejPolicy = .goBackN → 0 < winCount a →
      exec (.rej nr pf info) s = .next (drain (resendWindow a)) ∧
      exec (.srej nr pf info) s = .next (drain (resendWindow a))) ∧
    (s.cfg.rejPolicy = .timerOnly ∨ winCount a = 0 →
      exec (.rej nr pf info) s = .next (drain a) ∧ exec (.srej nr pf info) s = .next (drain a))

/-- SUBMIT: TOOLONG, then FULL, refuse it; otherwise the packet joins IN_FIFO and the window drains, in every
link state and while a delivery is pending (44_arq_window.md R228). -/
def Obligations.SubmitResult : Prop :=
  (∀ (p : Packet) (rest : List Byte), p.length ≤ 255 →
    decode (0x32 :: BitVec.ofNat 8 p.length :: (p ++ rest)) = .ok (.submit p, rest)) ∧
  ∀ (s : State) (p : Packet),
    (s.cfg.maxFrame - 4 < p.length →
      exec (.submit p) s = .next { s with out := s.out ++ [.resp .tooLong []] }) ∧
    (p.length ≤ s.cfg.maxFrame - 4 → s.inFifo.length = s.cfg.inFifoDepth →
      exec (.submit p) s = .next { s with out := s.out ++ [.resp .full []] }) ∧
    (p.length ≤ s.cfg.maxFrame - 4 → s.inFifo.length ≠ s.cfg.inFifoDepth →
      let t := drain { s with inFifo := s.inFifo ++ [p] }
      exec (.submit p) s = .next { t with out := t.out ++ [.resp .ok []] })

/-- DISPATCH_DONE: BADSTATE with nothing pending; otherwise the delivery ends, with an RR where the accepted
frame is still unacknowledged in Up (44_arq_window.md R235). -/
def Obligations.DispatchDoneResult : Prop :=
  (∀ rest : List Byte, decode (0x33 :: rest) = .ok (.dispatchDone, rest)) ∧
  ∀ s : State,
    (s.dispPend = false → exec .dispatchDone s = .next { s with out := s.out ++ [.resp .badState []] }) ∧
    (s.dispPend = true → s.ackPend = true → s.link = .up → exec .dispatchDone s = .next { s with
      dispPend := false, ackPend := false, crcTx := frameCrc s.cfg (sCtrl 0 s.rxNext) []
      out := s.out ++ frameOut s.cfg (sCtrl 0 s.rxNext) [] ++ [.resp .ok []] }) ∧
    (s.dispPend = true → s.ackPend = false ∨ s.link ≠ .up → exec .dispatchDone s = .next { s with
      dispPend := false, ackPend := false, out := s.out ++ [.resp .ok []] })

/-- RX_NEXT changes only by a reset to 0, or by exactly 1 for an I-frame in sequence that passed its checks while
Up. The spec marks this as its own inference (44_arq_window.md R237): "A command changes `RX_NEXT` only in two
ways". -/
def Obligations.RxNextAdvancesByOne : Prop :=
  ∀ (i : Instr) (s t : State), exec i s = .next t → t.rxNext ≠ s.rxNext →
    t.rxNext = 0 ∨
    (t.rxNext = s.rxNext + 1 ∧ s.link = .up ∧ ∃ nr pf p,
      i = .iFrame s.rxNext nr pf p ∨
      (i = .rxByte 0x7E ∧ s.dispPend = false ∧ s.rxState = .inFrame ∧ s.FramePasses ∧
        bufferedFrame s = .iFrame s.rxNext nr pf p))

/-! ### Timers -/

/-- TICK outside a dispatch: without a timer nothing counts; with one, each armed timer that does not expire
counts down by one (45_timers.md R262, R265). That an armed timer with count 0, which no run with parameters in range
has, goes on at 65535 is the model's choice (log entry 8). -/
def Obligations.TickCountsDown : Prop :=
  ∀ s : State, s.dispPend = false →
    (s.cfg.timerPresent = false → exec .tick s = .next { s with out := s.out ++ [.resp .ok []] }) ∧
    (s.cfg.timerPresent = true → (s.lt.armed = true → s.lt.cnt ≠ 1) → (s.rt.armed = true → s.rt.cnt ≠ 1) →
      exec .tick s = .next { s with
        lt := if s.lt.armed = true then { armed := true, cnt := s.lt.cnt - 1 } else s.lt
        rt := if s.rt.armed = true then { armed := true, cnt := s.rt.cnt - 1 } else s.rt
        out := s.out ++ [.resp .ok []] })

/-- The last tick of LT: SNRM is resent and LT restarts while Connecting; otherwise it only stops (45_timers.md
R263). -/
def Obligations.LinkTimerExpiry : Prop :=
  ∀ s : State, s.dispPend = false → s.cfg.timerPresent = true → s.lt = { armed := true, cnt := 1 } →
    s.rt.armed = false →
    (s.link = .connecting → exec .tick s = .next { s with
      lt := { armed := true, cnt := s.cfg.tLink }, crcTx := frameCrc s.cfg 0x83 []
      out := s.out ++ frameOut s.cfg 0x83 [] ++ [.resp .ok []] }) ∧
    (s.link ≠ .connecting → exec .tick s = .next { s with
      lt := { armed := false, cnt := 0 }, out := s.out ++ [.resp .ok []] })

/-- The last tick of RT: the oldest unacknowledged packet is resent with its N(S) and the current N(R), counted,
and RT restarts, while Up with a filled window; otherwise RT only stops (45_timers.md R264). -/
def Obligations.RetransmitTimerExpiry : Prop :=
  ∀ s : State, s.dispPend = false → s.cfg.timerPresent = true → s.rt = { armed := true, cnt := 1 } →
    s.lt.armed = false →
    (∀ p, s.link = .up → 0 < winCount s → slotAt s.winSlot s.winAck = some p →
      exec .tick s = .next { s with
        rt := { armed := true, cnt := s.cfg.tRetx }, ackPend := false
        crcTx := frameCrc s.cfg (iCtrl s.winAck s.rxNext) p
        cnt := { s.cnt with retx := s.cnt.retx + 1 }
        out := s.out ++ frameOut s.cfg (iCtrl s.winAck s.rxNext) p ++ [.resp .ok []] }) ∧
    (s.link ≠ .up ∨ winCount s = 0 → exec .tick s = .next { s with
      rt := { armed := false, cnt := 0 }, out := s.out ++ [.resp .ok []] })

/-- A timer armed with n expires on the n-th TICK and on no earlier one (45_timers.md R262). -/
def Obligations.TimersExpireOnNthTick : Prop :=
  ∀ (s : State) (n : U16), s.dispPend = false → s.cfg.timerPresent = true → n ≠ 0 →
    (s.lt = { armed := true, cnt := n } → s.rt.armed = false → s.link = .connecting →
      (∀ k < n.toNat, runAll (List.replicate k .tick) s = .next { s with
        lt := { armed := true, cnt := n - BitVec.ofNat 16 k }
        out := s.out ++ List.replicate k (.resp .ok []) }) ∧
      runAll (List.replicate n.toNat .tick) s = .next { s with
        lt := { armed := true, cnt := s.cfg.tLink }, crcTx := frameCrc s.cfg 0x83 []
        out := s.out ++ List.replicate (n.toNat - 1) (.resp .ok []) ++ frameOut s.cfg 0x83 [] ++
          [.resp .ok []] }) ∧
    (∀ p, s.rt = { armed := true, cnt := n } → s.lt.armed = false → s.link = .up → 0 < winCount s →
      slotAt s.winSlot s.winAck = some p →
      (∀ k < n.toNat, runAll (List.replicate k .tick) s = .next { s with
        rt := { armed := true, cnt := n - BitVec.ofNat 16 k }
        out := s.out ++ List.replicate k (.resp .ok []) }) ∧
      runAll (List.replicate n.toNat .tick) s = .next { s with
        rt := { armed := true, cnt := s.cfg.tRetx }, ackPend := false
        crcTx := frameCrc s.cfg (iCtrl s.winAck s.rxNext) p
        cnt := { s.cnt with retx := s.cnt.retx + 1 }
        out := s.out ++ List.replicate (n.toNat - 1) (.resp .ok []) ++
          frameOut s.cfg (iCtrl s.winAck s.rxNext) p ++ [.resp .ok []] })

/-! ### Control commands and reset -/

/-- NOP responds OK and a reserved opcode, one byte long, ILLEGAL, in every state, and neither changes anything
(46_control.md R280, R283). -/
def Obligations.NopAndReservedResult : Prop :=
  (∀ rest : List Byte, decode (0x00 :: rest) = .ok (.nop, rest)) ∧
  (∀ (op : Byte) (rest : List Byte),
    (0x03 ≤ op ∧ op ≤ 0x0F) ∨ (0x14 ≤ op ∧ op ≤ 0x1F) ∨ (0x22 ≤ op ∧ op ≤ 0x2F) ∨ (0x34 ≤ op ∧ op ≤ 0x3F) ∨
      0x41 ≤ op →
    decode (op :: rest) = .ok (.reserved op, rest)) ∧
  ∀ s : State, exec .nop s = .next { s with out := s.out ++ [.resp .ok []] } ∧
    ∀ op : Byte, exec (.reserved op) s = .next { s with out := s.out ++ [.resp .illegal []] }

/-- READ_REG answers every register of the map, low byte first, and ILLEGAL for every other number, and changes
nothing (46_control.md R282; 10_state.md R34, R35). -/
def Obligations.ReadRegResult : Prop :=
  (∀ (b : Byte) (rest : List Byte), decode (0x02 :: b :: rest) = .ok (.readReg b, rest)) ∧
  ∀ s : State, s.cfg.InRange → s.rxLen ≤ s.cfg.maxFrame → s.inFifo.length ≤ s.cfg.inFifoDepth →
    (∀ (b : Byte) (v : Nat), (b, v) ∈ registerTable s → exec (.readReg b) s = .next { s with
      out := s.out ++ [.resp .ok [BitVec.ofNat 8 v, BitVec.ofNat 8 (v / 256)]] }) ∧
    (∀ b : Byte, (0x0D ≤ b ∧ b ≤ 0x0F) ∨ (0x18 ≤ b ∧ b ≤ 0x2F) ∨ 0x38 ≤ b →
      exec (.readReg b) s = .next { s with out := s.out ++ [.resp .illegal []] }) ∧
    (∀ b : Byte, b ∈ (registerTable s).map Prod.fst ∨
      (0x0D ≤ b ∧ b ≤ 0x0F) ∨ (0x18 ≤ b ∧ b ≤ 0x2F) ∨ 0x38 ≤ b)

/-- SOFT_RESET puts every state element at its reset value in every state, sends nothing and emits no event;
every state register then reads 0 (46_control.md R281; 70_reset_and_hazards.md R331). 10_state.md R36 leaves the
contents of RX_BUF unspecified: that every byte of it is unlisted afterwards is the model's choice (log entry 5). -/
def Obligations.SoftResetResult : Prop :=
  (∀ rest : List Byte, decode (0x01 :: rest) = .ok (.softReset, rest)) ∧
  ∀ s : State, ∃ t, exec .softReset s = .next t ∧
    t = { State.resetWith s.cfg with input := s.input, out := s.out ++ [.resp .ok []] } ∧
    ∀ b : Byte, b ≤ 0x0C ∨ (0x10 ≤ b ∧ b ≤ 0x17) →
      exec (.readReg b) t = .next { t with out := t.out ++ [.resp .ok [0x00, 0x00]] }

/-- The reset state of 10_state.md R36, element by element, whatever the parameters (70_reset_and_hazards.md R330). -/
def Obligations.ResetState : Prop :=
  ∀ p : Params, let s := State.resetWith p
    (∀ c ∈ [s.crcH, s.crcRx, s.crcTx], c.val = 0xFFFF ∧ c.h1 = 0xFFFF ∧ c.h2 = 0xFFFF) ∧
    s.rxState = .idle ∧ s.rxLen = 0 ∧ s.rxOvr = false ∧ s.link = .down ∧ s.txSeq = 0 ∧ s.rxNext = 0 ∧
    (∀ i, slotAt s.winSlot i = none) ∧ s.winAck = 0 ∧ s.winTx = 0 ∧ s.inFifo = [] ∧
    s.lt = { armed := false, cnt := 0 } ∧ s.rt = { armed := false, cnt := 0 } ∧
    s.dispPend = false ∧ s.ackPend = false ∧ ∀ c, counterValue c s.cnt = 0

/-! ### The whole machine -/

/-- Every command that completes responds exactly once, last, with the status of the table; a status other than
OK changes no state and emits nothing but the response (60_exceptions.md R302, R303). -/
def Obligations.StatusOfEveryCommand : Prop :=
  ∀ (i : Instr) (s t : State) (st : Status), exec i s = .next t → statusOf s i = some st →
    (∃ mid data, t.out = s.out ++ mid ++ [.resp st data] ∧ ∀ o ∈ mid, isResp o = false) ∧
    (st ≠ .ok → t = { s with out := s.out ++ [.resp st []] })

/-- The invariant of 10_state.md R37, which the spec marks as its own inference ("They follow from the rules that
write the state"), holds right after reset, for every parameter value in range. -/
def Obligations.ResetSatisfiesInvariant : Prop :=
  State.reset.Inv ∧ ∀ p : Params, p.InRange → (State.resetWith p).Inv

/-- Every step keeps the invariant of 10_state.md R37, which the spec marks as its own inference ("The following hold
in the reset state and after every command"), from every state that has it (with the ranges and the RX_BUF and CRC_RX
relation of R24, R28, R29 and 42_frame_parser.md R174). -/
def Obligations.StepKeepsInvariant : Prop :=
  ∀ s t : State, s.Inv → step s = .next t → t.Inv

/-- No condition stops the block: with the invariant, every whole command completes. The spec marks this as its own
inference (70_reset_and_hazards.md R342): "Every command completes, and every loop in the rules is bounded". -/
def Obligations.WholeCommandsAlwaysComplete : Prop :=
  ∀ (s : State) (i : Instr) (rest : List Byte), s.Inv → decode s.input = .ok (i, rest) →
    ∃ t, step s = .next t ∧ t.input = rest ∧ t.Inv

/-- No rule can observe what RX_BUF holds at and above RX_LEN: two states that differ only there step alike and
go on differing only there. The spec marks this as its own inference (10_state.md R24): "The contents of `RX_BUF`
after reset are unspecified, and no rule can observe them". -/
def Obligations.UnreadBufferBytesInvisible : Prop :=
  ∀ s t : State, SameObserved s t →
    (∃ s' t', step s = .next s' ∧ step t = .next t' ∧ SameObserved s' t') ∨
    (∃ f, step s = .fault f ∧ step t = .fault f) ∨ (∃ r, step s = .refused r ∧ step t = .refused r)

/-- P/F is ignored on receive in every class (30_encoding.md R92). -/
def Obligations.PollFinalIgnored : Prop :=
  ∀ (ctrl : Byte) (info : Packet) (s : State),
    exec (decodeFrame (ctrl ^^^ 0x10) info) s = exec (decodeFrame ctrl info) s

/-- Who writes what: no instruction changes a parameter or reads ahead in the command stream, the output stream
only grows, a frame class responds nothing itself (the model's form: log entry 9), CRC_H is the CRC commands' alone, CRC_RX and RX_BUF the receive path's, RX_BUF only at address
RX_LEN and never from Idle, and a counter only counts (00_scope.md R7; 10_state.md R21, R22, R33, R37 item 8;
20_memory.md R60). -/
def Obligations.WritersOfEachElement : Prop :=
  ∀ (i : Instr) (s t : State), exec i s = .next t →
    t.cfg = s.cfg ∧ t.input = s.input ∧
    (∃ new, t.out = s.out ++ new ∧ (i.isFrame = true → ∀ o ∈ new, isResp o = false)) ∧
    (i ≠ .softReset →
      (t.crcH ≠ s.crcH → i = .crcReset ∨ ∃ b, i = .crcUpdate b) ∧
      (t.crcRx ≠ s.crcRx → ∃ b, i = .rxByte b) ∧
      (∀ a, Memory.read t.rxBuf a ≠ Memory.read s.rxBuf a →
        a = s.rxLen ∧ a < s.cfg.maxFrame ∧ s.rxState ≠ .idle ∧ ∃ b, i = .rxByte b) ∧
      ∀ c, ∃ k ≤ 8, counterValue c t.cnt = counterValue c s.cnt + BitVec.ofNat 16 k)
end

