-- ==== Sys2Proof/Laws/State.lean ====
section
/-!
SUPPORT. One lemma per field per update of State, for the updates that are not loops: each is true by rfl and
in the simp set, so that no later proof unfolds an update.
-/

namespace Sys2Proof.Machine

variable (s : State)

@[simp] theorem emit_crcH (os : List Output) : (emit os s).crcH = s.crcH := rfl
@[simp] theorem emit_crcRx (os : List Output) : (emit os s).crcRx = s.crcRx := rfl
@[simp] theorem emit_crcTx (os : List Output) : (emit os s).crcTx = s.crcTx := rfl
@[simp] theorem emit_rxState (os : List Output) : (emit os s).rxState = s.rxState := rfl
@[simp] theorem emit_rxBuf (os : List Output) : (emit os s).rxBuf = s.rxBuf := rfl
@[simp] theorem emit_rxLen (os : List Output) : (emit os s).rxLen = s.rxLen := rfl
@[simp] theorem emit_rxOvr (os : List Output) : (emit os s).rxOvr = s.rxOvr := rfl
@[simp] theorem emit_link (os : List Output) : (emit os s).link = s.link := rfl
@[simp] theorem emit_txSeq (os : List Output) : (emit os s).txSeq = s.txSeq := rfl
@[simp] theorem emit_rxNext (os : List Output) : (emit os s).rxNext = s.rxNext := rfl
@[simp] theorem emit_winSlot (os : List Output) : (emit os s).winSlot = s.winSlot := rfl
@[simp] theorem emit_winAck (os : List Output) : (emit os s).winAck = s.winAck := rfl
@[simp] theorem emit_winTx (os : List Output) : (emit os s).winTx = s.winTx := rfl
@[simp] theorem emit_inFifo (os : List Output) : (emit os s).inFifo = s.inFifo := rfl
@[simp] theorem emit_lt (os : List Output) : (emit os s).lt = s.lt := rfl
@[simp] theorem emit_rt (os : List Output) : (emit os s).rt = s.rt := rfl
@[simp] theorem emit_dispPend (os : List Output) : (emit os s).dispPend = s.dispPend := rfl
@[simp] theorem emit_ackPend (os : List Output) : (emit os s).ackPend = s.ackPend := rfl
@[simp] theorem emit_cnt (os : List Output) : (emit os s).cnt = s.cnt := rfl
@[simp] theorem emit_cfg (os : List Output) : (emit os s).cfg = s.cfg := rfl
@[simp] theorem emit_input (os : List Output) : (emit os s).input = s.input := rfl
@[simp] theorem emit_out (os : List Output) : (emit os s).out = s.out ++ os := rfl

@[simp] theorem respond_crcH (st : Status) (data : List Byte) : (respond st data s).crcH = s.crcH := rfl
@[simp] theorem respond_crcRx (st : Status) (data : List Byte) : (respond st data s).crcRx = s.crcRx := rfl
@[simp] theorem respond_crcTx (st : Status) (data : List Byte) : (respond st data s).crcTx = s.crcTx := rfl
@[simp] theorem respond_rxState (st : Status) (data : List Byte) : (respond st data s).rxState = s.rxState := rfl
@[simp] theorem respond_rxBuf (st : Status) (data : List Byte) : (respond st data s).rxBuf = s.rxBuf := rfl
@[simp] theorem respond_rxLen (st : Status) (data : List Byte) : (respond st data s).rxLen = s.rxLen := rfl
@[simp] theorem respond_rxOvr (st : Status) (data : List Byte) : (respond st data s).rxOvr = s.rxOvr := rfl
@[simp] theorem respond_link (st : Status) (data : List Byte) : (respond st data s).link = s.link := rfl
@[simp] theorem respond_txSeq (st : Status) (data : List Byte) : (respond st data s).txSeq = s.txSeq := rfl
@[simp] theorem respond_rxNext (st : Status) (data : List Byte) : (respond st data s).rxNext = s.rxNext := rfl
@[simp] theorem respond_winSlot (st : Status) (data : List Byte) : (respond st data s).winSlot = s.winSlot := rfl
@[simp] theorem respond_winAck (st : Status) (data : List Byte) : (respond st data s).winAck = s.winAck := rfl
@[simp] theorem respond_winTx (st : Status) (data : List Byte) : (respond st data s).winTx = s.winTx := rfl
@[simp] theorem respond_inFifo (st : Status) (data : List Byte) : (respond st data s).inFifo = s.inFifo := rfl
@[simp] theorem respond_lt (st : Status) (data : List Byte) : (respond st data s).lt = s.lt := rfl
@[simp] theorem respond_rt (st : Status) (data : List Byte) : (respond st data s).rt = s.rt := rfl
@[simp] theorem respond_dispPend (st : Status) (data : List Byte) : (respond st data s).dispPend = s.dispPend := rfl
@[simp] theorem respond_ackPend (st : Status) (data : List Byte) : (respond st data s).ackPend = s.ackPend := rfl
@[simp] theorem respond_cnt (st : Status) (data : List Byte) : (respond st data s).cnt = s.cnt := rfl
@[simp] theorem respond_cfg (st : Status) (data : List Byte) : (respond st data s).cfg = s.cfg := rfl
@[simp] theorem respond_input (st : Status) (data : List Byte) : (respond st data s).input = s.input := rfl
@[simp] theorem respond_out (st : Status) (data : List Byte) : (respond st data s).out = s.out ++ [.resp st data] := rfl

@[simp] theorem deliver_crcH (o : Output) : (deliver o s).crcH = s.crcH := rfl
@[simp] theorem deliver_crcRx (o : Output) : (deliver o s).crcRx = s.crcRx := rfl
@[simp] theorem deliver_crcTx (o : Output) : (deliver o s).crcTx = s.crcTx := rfl
@[simp] theorem deliver_rxState (o : Output) : (deliver o s).rxState = s.rxState := rfl
@[simp] theorem deliver_rxBuf (o : Output) : (deliver o s).rxBuf = s.rxBuf := rfl
@[simp] theorem deliver_rxLen (o : Output) : (deliver o s).rxLen = s.rxLen := rfl
@[simp] theorem deliver_rxOvr (o : Output) : (deliver o s).rxOvr = s.rxOvr := rfl
@[simp] theorem deliver_link (o : Output) : (deliver o s).link = s.link := rfl
@[simp] theorem deliver_txSeq (o : Output) : (deliver o s).txSeq = s.txSeq := rfl
@[simp] theorem deliver_rxNext (o : Output) : (deliver o s).rxNext = s.rxNext := rfl
@[simp] theorem deliver_winSlot (o : Output) : (deliver o s).winSlot = s.winSlot := rfl
@[simp] theorem deliver_winAck (o : Output) : (deliver o s).winAck = s.winAck := rfl
@[simp] theorem deliver_winTx (o : Output) : (deliver o s).winTx = s.winTx := rfl
@[simp] theorem deliver_inFifo (o : Output) : (deliver o s).inFifo = s.inFifo := rfl
@[simp] theorem deliver_lt (o : Output) : (deliver o s).lt = s.lt := rfl
@[simp] theorem deliver_rt (o : Output) : (deliver o s).rt = s.rt := rfl
@[simp] theorem deliver_dispPend (o : Output) : (deliver o s).dispPend = true := rfl
@[simp] theorem deliver_ackPend (o : Output) : (deliver o s).ackPend = s.ackPend := rfl
@[simp] theorem deliver_cnt (o : Output) : (deliver o s).cnt = s.cnt := rfl
@[simp] theorem deliver_cfg (o : Output) : (deliver o s).cfg = s.cfg := rfl
@[simp] theorem deliver_input (o : Output) : (deliver o s).input = s.input := rfl
@[simp] theorem deliver_out (o : Output) : (deliver o s).out = s.out ++ [o] := rfl

@[simp] theorem count_crcH (c : Counter) : (count c s).crcH = s.crcH := rfl
@[simp] theorem count_crcRx (c : Counter) : (count c s).crcRx = s.crcRx := rfl
@[simp] theorem count_crcTx (c : Counter) : (count c s).crcTx = s.crcTx := rfl
@[simp] theorem count_rxState (c : Counter) : (count c s).rxState = s.rxState := rfl
@[simp] theorem count_rxBuf (c : Counter) : (count c s).rxBuf = s.rxBuf := rfl
@[simp] theorem count_rxLen (c : Counter) : (count c s).rxLen = s.rxLen := rfl
@[simp] theorem count_rxOvr (c : Counter) : (count c s).rxOvr = s.rxOvr := rfl
@[simp] theorem count_link (c : Counter) : (count c s).link = s.link := rfl
@[simp] theorem count_txSeq (c : Counter) : (count c s).txSeq = s.txSeq := rfl
@[simp] theorem count_rxNext (c : Counter) : (count c s).rxNext = s.rxNext := rfl
@[simp] theorem count_winSlot (c : Counter) : (count c s).winSlot = s.winSlot := rfl
@[simp] theorem count_winAck (c : Counter) : (count c s).winAck = s.winAck := rfl
@[simp] theorem count_winTx (c : Counter) : (count c s).winTx = s.winTx := rfl
@[simp] theorem count_inFifo (c : Counter) : (count c s).inFifo = s.inFifo := rfl
@[simp] theorem count_lt (c : Counter) : (count c s).lt = s.lt := rfl
@[simp] theorem count_rt (c : Counter) : (count c s).rt = s.rt := rfl
@[simp] theorem count_dispPend (c : Counter) : (count c s).dispPend = s.dispPend := rfl
@[simp] theorem count_ackPend (c : Counter) : (count c s).ackPend = s.ackPend := rfl
@[simp] theorem count_cnt (c : Counter) : (count c s).cnt = addCounter c 1 s.cnt := rfl
@[simp] theorem count_cfg (c : Counter) : (count c s).cfg = s.cfg := rfl
@[simp] theorem count_input (c : Counter) : (count c s).input = s.input := rfl
@[simp] theorem count_out (c : Counter) : (count c s).out = s.out := rfl

@[simp] theorem armLT_crcH (n : U16) : (armLT n s).crcH = s.crcH := rfl
@[simp] theorem armLT_crcRx (n : U16) : (armLT n s).crcRx = s.crcRx := rfl
@[simp] theorem armLT_crcTx (n : U16) : (armLT n s).crcTx = s.crcTx := rfl
@[simp] theorem armLT_rxState (n : U16) : (armLT n s).rxState = s.rxState := rfl
@[simp] theorem armLT_rxBuf (n : U16) : (armLT n s).rxBuf = s.rxBuf := rfl
@[simp] theorem armLT_rxLen (n : U16) : (armLT n s).rxLen = s.rxLen := rfl
@[simp] theorem armLT_rxOvr (n : U16) : (armLT n s).rxOvr = s.rxOvr := rfl
@[simp] theorem armLT_link (n : U16) : (armLT n s).link = s.link := rfl
@[simp] theorem armLT_txSeq (n : U16) : (armLT n s).txSeq = s.txSeq := rfl
@[simp] theorem armLT_rxNext (n : U16) : (armLT n s).rxNext = s.rxNext := rfl
@[simp] theorem armLT_winSlot (n : U16) : (armLT n s).winSlot = s.winSlot := rfl
@[simp] theorem armLT_winAck (n : U16) : (armLT n s).winAck = s.winAck := rfl
@[simp] theorem armLT_winTx (n : U16) : (armLT n s).winTx = s.winTx := rfl
@[simp] theorem armLT_inFifo (n : U16) : (armLT n s).inFifo = s.inFifo := rfl
@[simp] theorem armLT_lt (n : U16) : (armLT n s).lt = { armed := true, cnt := n } := rfl
@[simp] theorem armLT_rt (n : U16) : (armLT n s).rt = s.rt := rfl
@[simp] theorem armLT_dispPend (n : U16) : (armLT n s).dispPend = s.dispPend := rfl
@[simp] theorem armLT_ackPend (n : U16) : (armLT n s).ackPend = s.ackPend := rfl
@[simp] theorem armLT_cnt (n : U16) : (armLT n s).cnt = s.cnt := rfl
@[simp] theorem armLT_cfg (n : U16) : (armLT n s).cfg = s.cfg := rfl
@[simp] theorem armLT_input (n : U16) : (armLT n s).input = s.input := rfl
@[simp] theorem armLT_out (n : U16) : (armLT n s).out = s.out := rfl

@[simp] theorem armRT_crcH (n : U16) : (armRT n s).crcH = s.crcH := rfl
@[simp] theorem armRT_crcRx (n : U16) : (armRT n s).crcRx = s.crcRx := rfl
@[simp] theorem armRT_crcTx (n : U16) : (armRT n s).crcTx = s.crcTx := rfl
@[simp] theorem armRT_rxState (n : U16) : (armRT n s).rxState = s.rxState := rfl
@[simp] theorem armRT_rxBuf (n : U16) : (armRT n s).rxBuf = s.rxBuf := rfl
@[simp] theorem armRT_rxLen (n : U16) : (armRT n s).rxLen = s.rxLen := rfl
@[simp] theorem armRT_rxOvr (n : U16) : (armRT n s).rxOvr = s.rxOvr := rfl
@[simp] theorem armRT_link (n : U16) : (armRT n s).link = s.link := rfl
@[simp] theorem armRT_txSeq (n : U16) : (armRT n s).txSeq = s.txSeq := rfl
@[simp] theorem armRT_rxNext (n : U16) : (armRT n s).rxNext = s.rxNext := rfl
@[simp] theorem armRT_winSlot (n : U16) : (armRT n s).winSlot = s.winSlot := rfl
@[simp] theorem armRT_winAck (n : U16) : (armRT n s).winAck = s.winAck := rfl
@[simp] theorem armRT_winTx (n : U16) : (armRT n s).winTx = s.winTx := rfl
@[simp] theorem armRT_inFifo (n : U16) : (armRT n s).inFifo = s.inFifo := rfl
@[simp] theorem armRT_lt (n : U16) : (armRT n s).lt = s.lt := rfl
@[simp] theorem armRT_rt (n : U16) : (armRT n s).rt = { armed := true, cnt := n } := rfl
@[simp] theorem armRT_dispPend (n : U16) : (armRT n s).dispPend = s.dispPend := rfl
@[simp] theorem armRT_ackPend (n : U16) : (armRT n s).ackPend = s.ackPend := rfl
@[simp] theorem armRT_cnt (n : U16) : (armRT n s).cnt = s.cnt := rfl
@[simp] theorem armRT_cfg (n : U16) : (armRT n s).cfg = s.cfg := rfl
@[simp] theorem armRT_input (n : U16) : (armRT n s).input = s.input := rfl
@[simp] theorem armRT_out (n : U16) : (armRT n s).out = s.out := rfl

@[simp] theorem cancelLT_crcH : (cancelLT s).crcH = s.crcH := rfl
@[simp] theorem cancelLT_crcRx : (cancelLT s).crcRx = s.crcRx := rfl
@[simp] theorem cancelLT_crcTx : (cancelLT s).crcTx = s.crcTx := rfl
@[simp] theorem cancelLT_rxState : (cancelLT s).rxState = s.rxState := rfl
@[simp] theorem cancelLT_rxBuf : (cancelLT s).rxBuf = s.rxBuf := rfl
@[simp] theorem cancelLT_rxLen : (cancelLT s).rxLen = s.rxLen := rfl
@[simp] theorem cancelLT_rxOvr : (cancelLT s).rxOvr = s.rxOvr := rfl
@[simp] theorem cancelLT_link : (cancelLT s).link = s.link := rfl
@[simp] theorem cancelLT_txSeq : (cancelLT s).txSeq = s.txSeq := rfl
@[simp] theorem cancelLT_rxNext : (cancelLT s).rxNext = s.rxNext := rfl
@[simp] theorem cancelLT_winSlot : (cancelLT s).winSlot = s.winSlot := rfl
@[simp] theorem cancelLT_winAck : (cancelLT s).winAck = s.winAck := rfl
@[simp] theorem cancelLT_winTx : (cancelLT s).winTx = s.winTx := rfl
@[simp] theorem cancelLT_inFifo : (cancelLT s).inFifo = s.inFifo := rfl
@[simp] theorem cancelLT_lt : (cancelLT s).lt = .off := rfl
@[simp] theorem cancelLT_rt : (cancelLT s).rt = s.rt := rfl
@[simp] theorem cancelLT_dispPend : (cancelLT s).dispPend = s.dispPend := rfl
@[simp] theorem cancelLT_ackPend : (cancelLT s).ackPend = s.ackPend := rfl
@[simp] theorem cancelLT_cnt : (cancelLT s).cnt = s.cnt := rfl
@[simp] theorem cancelLT_cfg : (cancelLT s).cfg = s.cfg := rfl
@[simp] theorem cancelLT_input : (cancelLT s).input = s.input := rfl
@[simp] theorem cancelLT_out : (cancelLT s).out = s.out := rfl

@[simp] theorem cancelRT_crcH : (cancelRT s).crcH = s.crcH := rfl
@[simp] theorem cancelRT_crcRx : (cancelRT s).crcRx = s.crcRx := rfl
@[simp] theorem cancelRT_crcTx : (cancelRT s).crcTx = s.crcTx := rfl
@[simp] theorem cancelRT_rxState : (cancelRT s).rxState = s.rxState := rfl
@[simp] theorem cancelRT_rxBuf : (cancelRT s).rxBuf = s.rxBuf := rfl
@[simp] theorem cancelRT_rxLen : (cancelRT s).rxLen = s.rxLen := rfl
@[simp] theorem cancelRT_rxOvr : (cancelRT s).rxOvr = s.rxOvr := rfl
@[simp] theorem cancelRT_link : (cancelRT s).link = s.link := rfl
@[simp] theorem cancelRT_txSeq : (cancelRT s).txSeq = s.txSeq := rfl
@[simp] theorem cancelRT_rxNext : (cancelRT s).rxNext = s.rxNext := rfl
@[simp] theorem cancelRT_winSlot : (cancelRT s).winSlot = s.winSlot := rfl
@[simp] theorem cancelRT_winAck : (cancelRT s).winAck = s.winAck := rfl
@[simp] theorem cancelRT_winTx : (cancelRT s).winTx = s.winTx := rfl
@[simp] theorem cancelRT_inFifo : (cancelRT s).inFifo = s.inFifo := rfl
@[simp] theorem cancelRT_lt : (cancelRT s).lt = s.lt := rfl
@[simp] theorem cancelRT_rt : (cancelRT s).rt = .off := rfl
@[simp] theorem cancelRT_dispPend : (cancelRT s).dispPend = s.dispPend := rfl
@[simp] theorem cancelRT_ackPend : (cancelRT s).ackPend = s.ackPend := rfl
@[simp] theorem cancelRT_cnt : (cancelRT s).cnt = s.cnt := rfl
@[simp] theorem cancelRT_cfg : (cancelRT s).cfg = s.cfg := rfl
@[simp] theorem cancelRT_input : (cancelRT s).input = s.input := rfl
@[simp] theorem cancelRT_out : (cancelRT s).out = s.out := rfl

@[simp] theorem rxWrite_crcH (a : Nat) (b : Byte) : (rxWrite a b s).crcH = s.crcH := rfl
@[simp] theorem rxWrite_crcRx (a : Nat) (b : Byte) : (rxWrite a b s).crcRx = s.crcRx := rfl
@[simp] theorem rxWrite_crcTx (a : Nat) (b : Byte) : (rxWrite a b s).crcTx = s.crcTx := rfl
@[simp] theorem rxWrite_rxState (a : Nat) (b : Byte) : (rxWrite a b s).rxState = s.rxState := rfl
@[simp] theorem rxWrite_rxBuf (a : Nat) (b : Byte) : (rxWrite a b s).rxBuf = Memory.write s.rxBuf a b := rfl
@[simp] theorem rxWrite_rxLen (a : Nat) (b : Byte) : (rxWrite a b s).rxLen = s.rxLen := rfl
@[simp] theorem rxWrite_rxOvr (a : Nat) (b : Byte) : (rxWrite a b s).rxOvr = s.rxOvr := rfl
@[simp] theorem rxWrite_link (a : Nat) (b : Byte) : (rxWrite a b s).link = s.link := rfl
@[simp] theorem rxWrite_txSeq (a : Nat) (b : Byte) : (rxWrite a b s).txSeq = s.txSeq := rfl
@[simp] theorem rxWrite_rxNext (a : Nat) (b : Byte) : (rxWrite a b s).rxNext = s.rxNext := rfl
@[simp] theorem rxWrite_winSlot (a : Nat) (b : Byte) : (rxWrite a b s).winSlot = s.winSlot := rfl
@[simp] theorem rxWrite_winAck (a : Nat) (b : Byte) : (rxWrite a b s).winAck = s.winAck := rfl
@[simp] theorem rxWrite_winTx (a : Nat) (b : Byte) : (rxWrite a b s).winTx = s.winTx := rfl
@[simp] theorem rxWrite_inFifo (a : Nat) (b : Byte) : (rxWrite a b s).inFifo = s.inFifo := rfl
@[simp] theorem rxWrite_lt (a : Nat) (b : Byte) : (rxWrite a b s).lt = s.lt := rfl
@[simp] theorem rxWrite_rt (a : Nat) (b : Byte) : (rxWrite a b s).rt = s.rt := rfl
@[simp] theorem rxWrite_dispPend (a : Nat) (b : Byte) : (rxWrite a b s).dispPend = s.dispPend := rfl
@[simp] theorem rxWrite_ackPend (a : Nat) (b : Byte) : (rxWrite a b s).ackPend = s.ackPend := rfl
@[simp] theorem rxWrite_cnt (a : Nat) (b : Byte) : (rxWrite a b s).cnt = s.cnt := rfl
@[simp] theorem rxWrite_cfg (a : Nat) (b : Byte) : (rxWrite a b s).cfg = s.cfg := rfl
@[simp] theorem rxWrite_input (a : Nat) (b : Byte) : (rxWrite a b s).input = s.input := rfl
@[simp] theorem rxWrite_out (a : Nat) (b : Byte) : (rxWrite a b s).out = s.out := rfl

@[simp] theorem emitFrame_crcH (c : Byte) (p : Packet) : (emitFrame c p s).crcH = s.crcH := rfl
@[simp] theorem emitFrame_crcRx (c : Byte) (p : Packet) : (emitFrame c p s).crcRx = s.crcRx := rfl
@[simp] theorem emitFrame_crcTx (c : Byte) (p : Packet) : (emitFrame c p s).crcTx = crcFold s.cfg.crcVariant crcResetX (s.cfg.stationAddr :: c :: p) := rfl
@[simp] theorem emitFrame_rxState (c : Byte) (p : Packet) : (emitFrame c p s).rxState = s.rxState := rfl
@[simp] theorem emitFrame_rxBuf (c : Byte) (p : Packet) : (emitFrame c p s).rxBuf = s.rxBuf := rfl
@[simp] theorem emitFrame_rxLen (c : Byte) (p : Packet) : (emitFrame c p s).rxLen = s.rxLen := rfl
@[simp] theorem emitFrame_rxOvr (c : Byte) (p : Packet) : (emitFrame c p s).rxOvr = s.rxOvr := rfl
@[simp] theorem emitFrame_link (c : Byte) (p : Packet) : (emitFrame c p s).link = s.link := rfl
@[simp] theorem emitFrame_txSeq (c : Byte) (p : Packet) : (emitFrame c p s).txSeq = s.txSeq := rfl
@[simp] theorem emitFrame_rxNext (c : Byte) (p : Packet) : (emitFrame c p s).rxNext = s.rxNext := rfl
@[simp] theorem emitFrame_winSlot (c : Byte) (p : Packet) : (emitFrame c p s).winSlot = s.winSlot := rfl
@[simp] theorem emitFrame_winAck (c : Byte) (p : Packet) : (emitFrame c p s).winAck = s.winAck := rfl
@[simp] theorem emitFrame_winTx (c : Byte) (p : Packet) : (emitFrame c p s).winTx = s.winTx := rfl
@[simp] theorem emitFrame_inFifo (c : Byte) (p : Packet) : (emitFrame c p s).inFifo = s.inFifo := rfl
@[simp] theorem emitFrame_lt (c : Byte) (p : Packet) : (emitFrame c p s).lt = s.lt := rfl
@[simp] theorem emitFrame_rt (c : Byte) (p : Packet) : (emitFrame c p s).rt = s.rt := rfl
@[simp] theorem emitFrame_dispPend (c : Byte) (p : Packet) : (emitFrame c p s).dispPend = s.dispPend := rfl
@[simp] theorem emitFrame_ackPend (c : Byte) (p : Packet) : (emitFrame c p s).ackPend = s.ackPend := rfl
@[simp] theorem emitFrame_cnt (c : Byte) (p : Packet) : (emitFrame c p s).cnt = s.cnt := rfl
@[simp] theorem emitFrame_cfg (c : Byte) (p : Packet) : (emitFrame c p s).cfg = s.cfg := rfl
@[simp] theorem emitFrame_input (c : Byte) (p : Packet) : (emitFrame c p s).input = s.input := rfl
@[simp] theorem emitFrame_out (c : Byte) (p : Packet) : (emitFrame c p s).out = s.out ++ (frameLine s.cfg (s.cfg.stationAddr :: c :: p)).map .line := rfl

@[simp] theorem sendU_crcH (c : Byte) : (sendU c s).crcH = s.crcH := rfl
@[simp] theorem sendU_crcRx (c : Byte) : (sendU c s).crcRx = s.crcRx := rfl
@[simp] theorem sendU_crcTx (c : Byte) : (sendU c s).crcTx = crcFold s.cfg.crcVariant crcResetX [s.cfg.stationAddr, c] := rfl
@[simp] theorem sendU_rxState (c : Byte) : (sendU c s).rxState = s.rxState := rfl
@[simp] theorem sendU_rxBuf (c : Byte) : (sendU c s).rxBuf = s.rxBuf := rfl
@[simp] theorem sendU_rxLen (c : Byte) : (sendU c s).rxLen = s.rxLen := rfl
@[simp] theorem sendU_rxOvr (c : Byte) : (sendU c s).rxOvr = s.rxOvr := rfl
@[simp] theorem sendU_link (c : Byte) : (sendU c s).link = s.link := rfl
@[simp] theorem sendU_txSeq (c : Byte) : (sendU c s).txSeq = s.txSeq := rfl
@[simp] theorem sendU_rxNext (c : Byte) : (sendU c s).rxNext = s.rxNext := rfl
@[simp] theorem sendU_winSlot (c : Byte) : (sendU c s).winSlot = s.winSlot := rfl
@[simp] theorem sendU_winAck (c : Byte) : (sendU c s).winAck = s.winAck := rfl
@[simp] theorem sendU_winTx (c : Byte) : (sendU c s).winTx = s.winTx := rfl
@[simp] theorem sendU_inFifo (c : Byte) : (sendU c s).inFifo = s.inFifo := rfl
@[simp] theorem sendU_lt (c : Byte) : (sendU c s).lt = s.lt := rfl
@[simp] theorem sendU_rt (c : Byte) : (sendU c s).rt = s.rt := rfl
@[simp] theorem sendU_dispPend (c : Byte) : (sendU c s).dispPend = s.dispPend := rfl
@[simp] theorem sendU_ackPend (c : Byte) : (sendU c s).ackPend = s.ackPend := rfl
@[simp] theorem sendU_cnt (c : Byte) : (sendU c s).cnt = s.cnt := rfl
@[simp] theorem sendU_cfg (c : Byte) : (sendU c s).cfg = s.cfg := rfl
@[simp] theorem sendU_input (c : Byte) : (sendU c s).input = s.input := rfl
@[simp] theorem sendU_out (c : Byte) : (sendU c s).out = s.out ++ (frameLine s.cfg [s.cfg.stationAddr, c]).map .line := rfl

@[simp] theorem sendS_crcH (fn : BitVec 2) (n : U3) : (sendS fn n s).crcH = s.crcH := rfl
@[simp] theorem sendS_crcRx (fn : BitVec 2) (n : U3) : (sendS fn n s).crcRx = s.crcRx := rfl
@[simp] theorem sendS_crcTx (fn : BitVec 2) (n : U3) : (sendS fn n s).crcTx = crcFold s.cfg.crcVariant crcResetX [s.cfg.stationAddr, sCtrl fn n] := rfl
@[simp] theorem sendS_rxState (fn : BitVec 2) (n : U3) : (sendS fn n s).rxState = s.rxState := rfl
@[simp] theorem sendS_rxBuf (fn : BitVec 2) (n : U3) : (sendS fn n s).rxBuf = s.rxBuf := rfl
@[simp] theorem sendS_rxLen (fn : BitVec 2) (n : U3) : (sendS fn n s).rxLen = s.rxLen := rfl
@[simp] theorem sendS_rxOvr (fn : BitVec 2) (n : U3) : (sendS fn n s).rxOvr = s.rxOvr := rfl
@[simp] theorem sendS_link (fn : BitVec 2) (n : U3) : (sendS fn n s).link = s.link := rfl
@[simp] theorem sendS_txSeq (fn : BitVec 2) (n : U3) : (sendS fn n s).txSeq = s.txSeq := rfl
@[simp] theorem sendS_rxNext (fn : BitVec 2) (n : U3) : (sendS fn n s).rxNext = s.rxNext := rfl
@[simp] theorem sendS_winSlot (fn : BitVec 2) (n : U3) : (sendS fn n s).winSlot = s.winSlot := rfl
@[simp] theorem sendS_winAck (fn : BitVec 2) (n : U3) : (sendS fn n s).winAck = s.winAck := rfl
@[simp] theorem sendS_winTx (fn : BitVec 2) (n : U3) : (sendS fn n s).winTx = s.winTx := rfl
@[simp] theorem sendS_inFifo (fn : BitVec 2) (n : U3) : (sendS fn n s).inFifo = s.inFifo := rfl
@[simp] theorem sendS_lt (fn : BitVec 2) (n : U3) : (sendS fn n s).lt = s.lt := rfl
@[simp] theorem sendS_rt (fn : BitVec 2) (n : U3) : (sendS fn n s).rt = s.rt := rfl
@[simp] theorem sendS_dispPend (fn : BitVec 2) (n : U3) : (sendS fn n s).dispPend = s.dispPend := rfl
@[simp] theorem sendS_ackPend (fn : BitVec 2) (n : U3) : (sendS fn n s).ackPend = false := rfl
@[simp] theorem sendS_cnt (fn : BitVec 2) (n : U3) : (sendS fn n s).cnt = s.cnt := rfl
@[simp] theorem sendS_cfg (fn : BitVec 2) (n : U3) : (sendS fn n s).cfg = s.cfg := rfl
@[simp] theorem sendS_input (fn : BitVec 2) (n : U3) : (sendS fn n s).input = s.input := rfl
@[simp] theorem sendS_out (fn : BitVec 2) (n : U3) : (sendS fn n s).out = s.out ++ (frameLine s.cfg [s.cfg.stationAddr, sCtrl fn n]).map .line := rfl

@[simp] theorem sendI_crcH (i : U3) : (sendI i s).crcH = s.crcH := rfl
@[simp] theorem sendI_crcRx (i : U3) : (sendI i s).crcRx = s.crcRx := rfl
@[simp] theorem sendI_crcTx (i : U3) : (sendI i s).crcTx = crcFold s.cfg.crcVariant crcResetX (s.cfg.stationAddr :: iCtrl i s.rxNext :: slotPacket s i) := rfl
@[simp] theorem sendI_rxState (i : U3) : (sendI i s).rxState = s.rxState := rfl
@[simp] theorem sendI_rxBuf (i : U3) : (sendI i s).rxBuf = s.rxBuf := rfl
@[simp] theorem sendI_rxLen (i : U3) : (sendI i s).rxLen = s.rxLen := rfl
@[simp] theorem sendI_rxOvr (i : U3) : (sendI i s).rxOvr = s.rxOvr := rfl
@[simp] theorem sendI_link (i : U3) : (sendI i s).link = s.link := rfl
@[simp] theorem sendI_txSeq (i : U3) : (sendI i s).txSeq = s.txSeq := rfl
@[simp] theorem sendI_rxNext (i : U3) : (sendI i s).rxNext = s.rxNext := rfl
@[simp] theorem sendI_winSlot (i : U3) : (sendI i s).winSlot = s.winSlot := rfl
@[simp] theorem sendI_winAck (i : U3) : (sendI i s).winAck = s.winAck := rfl
@[simp] theorem sendI_winTx (i : U3) : (sendI i s).winTx = s.winTx := rfl
@[simp] theorem sendI_inFifo (i : U3) : (sendI i s).inFifo = s.inFifo := rfl
@[simp] theorem sendI_lt (i : U3) : (sendI i s).lt = s.lt := rfl
@[simp] theorem sendI_rt (i : U3) : (sendI i s).rt = { armed := true, cnt := s.cfg.tRetx } := rfl
@[simp] theorem sendI_dispPend (i : U3) : (sendI i s).dispPend = s.dispPend := rfl
@[simp] theorem sendI_ackPend (i : U3) : (sendI i s).ackPend = false := rfl
@[simp] theorem sendI_cnt (i : U3) : (sendI i s).cnt = s.cnt := rfl
@[simp] theorem sendI_cfg (i : U3) : (sendI i s).cfg = s.cfg := rfl
@[simp] theorem sendI_input (i : U3) : (sendI i s).input = s.input := rfl
@[simp] theorem sendI_out (i : U3) : (sendI i s).out = s.out ++ (frameLine s.cfg (s.cfg.stationAddr :: iCtrl i s.rxNext :: slotPacket s i)).map .line := rfl

@[simp] theorem seqReset_crcH : (seqReset s).crcH = s.crcH := rfl
@[simp] theorem seqReset_crcRx : (seqReset s).crcRx = s.crcRx := rfl
@[simp] theorem seqReset_crcTx : (seqReset s).crcTx = s.crcTx := rfl
@[simp] theorem seqReset_rxState : (seqReset s).rxState = s.rxState := rfl
@[simp] theorem seqReset_rxBuf : (seqReset s).rxBuf = s.rxBuf := rfl
@[simp] theorem seqReset_rxLen : (seqReset s).rxLen = s.rxLen := rfl
@[simp] theorem seqReset_rxOvr : (seqReset s).rxOvr = s.rxOvr := rfl
@[simp] theorem seqReset_link : (seqReset s).link = s.link := rfl
@[simp] theorem seqReset_txSeq : (seqReset s).txSeq = 0 := rfl
@[simp] theorem seqReset_rxNext : (seqReset s).rxNext = 0 := rfl
@[simp] theorem seqReset_winSlot : (seqReset s).winSlot = Vector.replicate 8 none := rfl
@[simp] theorem seqReset_winAck : (seqReset s).winAck = 0 := rfl
@[simp] theorem seqReset_winTx : (seqReset s).winTx = 0 := rfl
@[simp] theorem seqReset_inFifo : (seqReset s).inFifo = s.inFifo := rfl
@[simp] theorem seqReset_lt : (seqReset s).lt = s.lt := rfl
@[simp] theorem seqReset_rt : (seqReset s).rt = .off := rfl
@[simp] theorem seqReset_dispPend : (seqReset s).dispPend = s.dispPend := rfl
@[simp] theorem seqReset_ackPend : (seqReset s).ackPend = false := rfl
@[simp] theorem seqReset_cnt : (seqReset s).cnt = addCounter .winDiscard (occupied s.winSlot) s.cnt := rfl
@[simp] theorem seqReset_cfg : (seqReset s).cfg = s.cfg := rfl
@[simp] theorem seqReset_input : (seqReset s).input = s.input := rfl
@[simp] theorem seqReset_out : (seqReset s).out = s.out := rfl

@[simp] theorem acceptNext_crcH : (acceptNext s).crcH = s.crcH := rfl
@[simp] theorem acceptNext_crcRx : (acceptNext s).crcRx = s.crcRx := rfl
@[simp] theorem acceptNext_crcTx : (acceptNext s).crcTx = s.crcTx := rfl
@[simp] theorem acceptNext_rxState : (acceptNext s).rxState = s.rxState := rfl
@[simp] theorem acceptNext_rxBuf : (acceptNext s).rxBuf = s.rxBuf := rfl
@[simp] theorem acceptNext_rxLen : (acceptNext s).rxLen = s.rxLen := rfl
@[simp] theorem acceptNext_rxOvr : (acceptNext s).rxOvr = s.rxOvr := rfl
@[simp] theorem acceptNext_link : (acceptNext s).link = s.link := rfl
@[simp] theorem acceptNext_txSeq : (acceptNext s).txSeq = s.txSeq := rfl
@[simp] theorem acceptNext_rxNext : (acceptNext s).rxNext = s.rxNext + 1 := rfl
@[simp] theorem acceptNext_winSlot : (acceptNext s).winSlot = s.winSlot := rfl
@[simp] theorem acceptNext_winAck : (acceptNext s).winAck = s.winAck := rfl
@[simp] theorem acceptNext_winTx : (acceptNext s).winTx = s.winTx := rfl
@[simp] theorem acceptNext_inFifo : (acceptNext s).inFifo = s.inFifo := rfl
@[simp] theorem acceptNext_lt : (acceptNext s).lt = s.lt := rfl
@[simp] theorem acceptNext_rt : (acceptNext s).rt = s.rt := rfl
@[simp] theorem acceptNext_dispPend : (acceptNext s).dispPend = s.dispPend := rfl
@[simp] theorem acceptNext_ackPend : (acceptNext s).ackPend = true := rfl
@[simp] theorem acceptNext_cnt : (acceptNext s).cnt = s.cnt := rfl
@[simp] theorem acceptNext_cfg : (acceptNext s).cfg = s.cfg := rfl
@[simp] theorem acceptNext_input : (acceptNext s).input = s.input := rfl
@[simp] theorem acceptNext_out : (acceptNext s).out = s.out := rfl

@[simp] theorem softReset_crcH : (softReset s).crcH = .initial := rfl
@[simp] theorem softReset_crcRx : (softReset s).crcRx = .initial := rfl
@[simp] theorem softReset_crcTx : (softReset s).crcTx = .initial := rfl
@[simp] theorem softReset_rxState : (softReset s).rxState = .idle := rfl
@[simp] theorem softReset_rxBuf : (softReset s).rxBuf = [] := rfl
@[simp] theorem softReset_rxLen : (softReset s).rxLen = 0 := rfl
@[simp] theorem softReset_rxOvr : (softReset s).rxOvr = false := rfl
@[simp] theorem softReset_link : (softReset s).link = .down := rfl
@[simp] theorem softReset_txSeq : (softReset s).txSeq = 0 := rfl
@[simp] theorem softReset_rxNext : (softReset s).rxNext = 0 := rfl
@[simp] theorem softReset_winSlot : (softReset s).winSlot = Vector.replicate 8 none := rfl
@[simp] theorem softReset_winAck : (softReset s).winAck = 0 := rfl
@[simp] theorem softReset_winTx : (softReset s).winTx = 0 := rfl
@[simp] theorem softReset_inFifo : (softReset s).inFifo = [] := rfl
@[simp] theorem softReset_lt : (softReset s).lt = .off := rfl
@[simp] theorem softReset_rt : (softReset s).rt = .off := rfl
@[simp] theorem softReset_dispPend : (softReset s).dispPend = false := rfl
@[simp] theorem softReset_ackPend : (softReset s).ackPend = false := rfl
@[simp] theorem softReset_cnt : (softReset s).cnt = .zero := rfl
@[simp] theorem softReset_cfg : (softReset s).cfg = s.cfg := rfl
@[simp] theorem softReset_input : (softReset s).input = s.input := rfl
@[simp] theorem softReset_out : (softReset s).out = s.out := rfl

@[simp] theorem goDown_crcH (r : LinkDownReason) : (goDown r s).crcH = s.crcH := rfl
@[simp] theorem goDown_crcRx (r : LinkDownReason) : (goDown r s).crcRx = s.crcRx := rfl
@[simp] theorem goDown_crcTx (r : LinkDownReason) : (goDown r s).crcTx = s.crcTx := rfl
@[simp] theorem goDown_rxState (r : LinkDownReason) : (goDown r s).rxState = s.rxState := rfl
@[simp] theorem goDown_rxBuf (r : LinkDownReason) : (goDown r s).rxBuf = s.rxBuf := rfl
@[simp] theorem goDown_rxLen (r : LinkDownReason) : (goDown r s).rxLen = s.rxLen := rfl
@[simp] theorem goDown_rxOvr (r : LinkDownReason) : (goDown r s).rxOvr = s.rxOvr := rfl
@[simp] theorem goDown_link (r : LinkDownReason) : (goDown r s).link = .down := rfl
@[simp] theorem goDown_txSeq (r : LinkDownReason) : (goDown r s).txSeq = 0 := rfl
@[simp] theorem goDown_rxNext (r : LinkDownReason) : (goDown r s).rxNext = 0 := rfl
@[simp] theorem goDown_winSlot (r : LinkDownReason) : (goDown r s).winSlot = Vector.replicate 8 none := rfl
@[simp] theorem goDown_winAck (r : LinkDownReason) : (goDown r s).winAck = 0 := rfl
@[simp] theorem goDown_winTx (r : LinkDownReason) : (goDown r s).winTx = 0 := rfl
@[simp] theorem goDown_inFifo (r : LinkDownReason) : (goDown r s).inFifo = s.inFifo := rfl
@[simp] theorem goDown_lt (r : LinkDownReason) : (goDown r s).lt = .off := rfl
@[simp] theorem goDown_rt (r : LinkDownReason) : (goDown r s).rt = .off := rfl
@[simp] theorem goDown_dispPend (r : LinkDownReason) : (goDown r s).dispPend = s.dispPend := rfl
@[simp] theorem goDown_ackPend (r : LinkDownReason) : (goDown r s).ackPend = false := rfl
@[simp] theorem goDown_cnt (r : LinkDownReason) : (goDown r s).cnt = addCounter .winDiscard (occupied s.winSlot) s.cnt := rfl
@[simp] theorem goDown_cfg (r : LinkDownReason) : (goDown r s).cfg = s.cfg := rfl
@[simp] theorem goDown_input (r : LinkDownReason) : (goDown r s).input = s.input := rfl
@[simp] theorem goDown_out (r : LinkDownReason) : (goDown r s).out = s.out ++ [.linkDown r] := rfl

end Sys2Proof.Machine
end

