-- ==== Sys2Proof/Laws/Codec.lean ====
section
/-!
SUPPORT. The CRC fold, the emitted frame and the sequence reset: what each is, once.
-/

namespace Sys2Proof.Machine

theorem crcFold_append (v : CrcVariant) (x : Crc) (as bs : List Byte) :
    crcFold v x (as ++ bs) = crcFold v (crcFold v x as) bs := List.foldl_append

@[simp] theorem crcFold_nil (v : CrcVariant) (x : Crc) : crcFold v x [] = x := rfl

@[simp] theorem crcFold_cons (v : CrcVariant) (x : Crc) (b : Byte) (bs : List Byte) :
    crcFold v x (b :: bs) = crcFold v (crcUpdateX v x b) bs := rfl

/-- VAL after a fold is the fold of crc_step over VAL. -/
theorem crcFold_val (v : CrcVariant) (x : Crc) (bs : List Byte) :
    (crcFold v x bs).val = bs.foldl (crcStep v) x.val := by
  induction bs generalizing x with
  | nil => rfl
  | cons b bs ih => exact ih _

/-- A byte that is neither the flag nor the escape stands for itself on the line. -/
theorem stuffByte_plain {b : Byte} (h1 : b ≠ flagByte) (h2 : b ≠ escByte) : stuffByte b = [b] := by
  simp [stuffByte, h1, h2]

/-- emit_frame changes CRC_TX and appends the frame's LINE records. -/
theorem emitFrame_eq (ctrl : Byte) (payload : Packet) (s : State) :
    emitFrame ctrl payload s = { s with
      crcTx := frameCrc s.cfg ctrl payload, out := s.out ++ frameOut s.cfg ctrl payload } := rfl

/-- seq_reset, field by field. -/
theorem seqReset_eq (s : State) : seqReset s = seqCleared s := by
  simp [seqReset, seqCleared, cancelRT, Timer.off, addCounter, occupied, List.countP_eq_length_filter]

end Sys2Proof.Machine
end

