-- ==== Sys2Proof/Laws/Memory.lean ====
section
/-!
SUPPORT. RX_BUF: a read after a write, the canonical form and the address range every operation keeps.
-/

namespace Sys2Proof.Machine

/-- A read after a write: the byte written, elsewhere the byte as before. -/
theorem Memory.read_write (m : Memory) (a : Nat) (b : Byte) (x : Nat) :
    Memory.read (Memory.write m a b) x = if x = a then some b else Memory.read m x := by
  induction m with
  | nil => simp only [Memory.write, Memory.read]; split_ifs <;> first | rfl | omega
  | cons c m ih =>
    simp only [Memory.write]
    split_ifs with h1 h2 <;> simp only [Memory.read] at * <;> split_ifs <;> first | rfl | omega | simp_all

@[simp] theorem Memory.read_write_same (m : Memory) (a : Nat) (b : Byte) :
    Memory.read (Memory.write m a b) a = some b := by simp [Memory.read_write]

theorem Memory.read_write_other (m : Memory) {a x : Nat} (b : Byte) (h : x ≠ a) :
    Memory.read (Memory.write m a b) x = Memory.read m x := by simp [Memory.read_write, h]

/-- A write adds no address but the one written. -/
theorem Memory.mem_write {m : Memory} {a : Nat} {b : Byte} {c : Host.Cell} (h : c ∈ Memory.write m a b) :
    c = (a, b) ∨ c ∈ m := by
  induction m with
  | nil => simpa [Memory.write] using h
  | cons d m ih =>
    simp only [Memory.write] at h
    split_ifs at h <;> simp only [List.mem_cons] at h ⊢ <;> tauto

/-- The canonical form in terms of the list: addresses strictly rising. -/
theorem Memory.wf_cons (c : Host.Cell) (m : Memory) :
    Memory.wf (c :: m) = true ↔ (∀ d ∈ m, c.1 < d.1) ∧ Memory.wf m = true := by
  induction m generalizing c with
  | nil => simp [Memory.wf]
  | cons d m ih =>
    simp only [Memory.wf, Bool.and_eq_true, decide_eq_true_eq, List.mem_cons, forall_eq_or_imp]
    constructor
    · rintro ⟨h, hw⟩
      exact ⟨⟨h, fun e he => h.trans (((ih d).1 hw).1 e he)⟩, hw⟩
    · rintro ⟨⟨h, _⟩, hw⟩
      exact ⟨h, hw⟩

/-- A write keeps the canonical form. -/
theorem Memory.write_wf {m : Memory} (a : Nat) (b : Byte) (h : Memory.wf m = true) :
    Memory.wf (Memory.write m a b) = true := by
  induction m with
  | nil => rfl
  | cons c m ih =>
    have hc := (Memory.wf_cons c m).1 h
    simp only [Memory.write]
    split_ifs with h1 h2
    · exact (Memory.wf_cons _ _).2 ⟨fun d hd => by
        rcases List.mem_cons.1 hd with rfl | hd
        · exact h1
        · exact h1.trans (hc.1 d hd), h⟩
    · exact (Memory.wf_cons _ _).2 ⟨fun d hd => h2 ▸ hc.1 d hd, hc.2⟩
    · refine (Memory.wf_cons _ _).2 ⟨fun d hd => ?_, ih hc.2⟩
      rcases Memory.mem_write hd with rfl | hd
      · exact show c.1 < a by omega
      · exact hc.1 d hd

/-- The memory right after reset is canonical. -/
theorem resetWith_memory_wf (p : Params) : Memory.wf (State.resetWith p).rxBuf = true := rfl

/-- SOFT_RESET leaves a canonical memory. -/
theorem softReset_memory_wf (s : State) : Memory.wf (softReset s).rxBuf = true := rfl

/-- RX_BUF[x] after RX_BUF[a] <- b. -/
theorem rxRead_rxWrite (s : State) (a : Nat) (b : Byte) (x : Nat) :
    rxRead (rxWrite a b s) x = if x = a then b else rxRead s x := by
  simp only [rxRead, rxWrite_rxBuf, Memory.read_write]
  split_ifs <;> rfl

/-- rxRead depends on RX_BUF alone. -/
theorem rxRead_congr {s t : State} (h : s.rxBuf = t.rxBuf) (a : Nat) : rxRead s a = rxRead t a := by
  simp [rxRead, h]

end Sys2Proof.Machine
end

