-- ==== Sys2Proof/Laws/Window.lean ====
section
/-!
SUPPORT. The window's operations: what each can do, once; and what the loops drain and resend_window leave
unchanged.
-/

namespace Sys2Proof.Machine

/-! ### Slots -/

theorem slotAt_setSlot (v : Vector (Option Packet) 8) (i : U3) (x : Option Packet) (j : U3) :
    slotAt (setSlot v i x) j = if j = i then x else slotAt v j := by
  simp only [slotAt, setSlot, Vector.getElem_set, ← BitVec.toNat_inj, eq_comm]

@[simp] theorem slotAt_setSlot_same (v : Vector (Option Packet) 8) (i : U3) (x : Option Packet) :
    slotAt (setSlot v i x) i = x := by simp [slotAt_setSlot]

@[simp] theorem slotAt_empty (i : U3) : slotAt (Vector.replicate 8 none) i = none := by simp [slotAt]

/-- Two windows with the same slots are equal. -/
theorem slots_ext {v w : Vector (Option Packet) 8} (h : ∀ i, slotAt v i = slotAt w i) : v = w := by
  ext1 i hi
  have := h (BitVec.ofNat 3 i)
  simp only [slotAt, BitVec.toNat_ofNat] at this
  have e : i % 2 ^ 3 = i := Nat.mod_eq_of_lt hi
  simpa only [e] using this

/-! ### win_count and nr_valid -/

theorem winCount_lt (s : State) : winCount s < 8 := (s.winTx - s.winAck).isLt

theorem winCount_congr {s t : State} (h1 : s.winTx = t.winTx) (h2 : s.winAck = t.winAck) :
    winCount s = winCount t := by simp [winCount, h1, h2]

theorem nrValid_iff (s : State) (n : U3) : nrValid s n = true ↔ (n - s.winAck).toNat ≤ winCount s := by
  simp [nrValid]

/-! ### ack_up_to -/

/-- The release loop changes only the slots and WIN_ACK. -/
theorem releaseN_eq (k : Nat) (s : State) :
    releaseN k s = { s with winSlot := (releaseN k s).winSlot, winAck := s.winAck + BitVec.ofNat 3 k } := by
  induction k generalizing s with
  | zero => simp [releaseN]
  | succ k ih =>
    rw [releaseN, ih]
    have e : s.winAck + 1 + BitVec.ofNat 3 k = s.winAck + BitVec.ofNat 3 (k + 1) := by
      rw [BitVec.ofNat_add, add_assoc, add_comm (1 : U3)]; rfl
    simp only [e]

/-- The release loop run k <= 8 times empties the k slots from WIN_ACK on and no other. -/
theorem releaseN_slot (k : Nat) (hk : k ≤ 8) (s : State) (i : U3) :
    slotAt (releaseN k s).winSlot i = if (i - s.winAck).toNat < k then none else slotAt s.winSlot i := by
  induction k generalizing s with
  | zero => simp [releaseN]
  | succ k ih =>
    rw [releaseN, ih (by omega)]
    simp only [slotAt_setSlot]
    by_cases h : i = s.winAck
    · subst h; simp
    · have h0 : (i - s.winAck).toNat ≠ 0 := fun e => h <| by
        have : i - s.winAck = 0 := BitVec.eq_of_toNat_eq (by simpa using e)
        exact BitVec.sub_eq_iff_eq_add.1 this |>.trans (by simp)
      have e : (i - (s.winAck + 1)).toNat = (i - s.winAck).toNat - 1 := by
        simp only [BitVec.toNat_sub, BitVec.toNat_add] at h0 ⊢
        have := i.isLt; have := s.winAck.isLt
        have : (1 : U3).toNat = 1 := rfl
        omega
      rw [e, if_neg h]
      congr 1
      simp only [eq_iff_iff]; omega

/-- ack_up_to refuses an invalid N(R). -/
theorem ackUpTo_invalid {s : State} {n : U3} (h : nrValid s n = false) : ackUpTo n s = none := by
  simp [ackUpTo, h]

/-- All that ack_up_to does with a valid N(R). -/
theorem ackUpTo_valid {s : State} {n : U3} (h : nrValid s n = true) :
    ∃ v, ackUpTo n s = some { s with winSlot := v, winAck := n, rt := if s.winTx = n then .off else s.rt } ∧
      ∀ i, slotAt v i = if (i - s.winAck).toNat < (n - s.winAck).toNat then none else slotAt s.winSlot i := by
  refine ⟨(releaseN (n - s.winAck).toNat s).winSlot, ?_, fun i =>
    releaseN_slot _ (Nat.le_of_lt (n - s.winAck).isLt) s i⟩
  have e : s.winAck + BitVec.ofNat 3 (n - s.winAck).toNat = n := by
    rw [BitVec.ofNat_toNat, BitVec.setWidth_eq, add_sub_cancel]
  have hz : winCount (releaseN (n - s.winAck).toNat s) = 0 ↔ s.winTx = n := by
    rw [releaseN_eq, e, winCount]
    constructor
    · intro h
      have : s.winTx - n = 0 := BitVec.eq_of_toNat_eq (by simpa using h)
      simpa using BitVec.sub_eq_iff_eq_add.1 this
    · rintro h; simp [h]
  simp only [ackUpTo, h, if_true, hz]
  rw [releaseN_eq, e]
  split_ifs <;> rfl

/-! ### drain -/

/-- One turn of drain where the ring has room (44_arq_window.md R227, R221, R222, R225). -/
theorem sendNew_eq (p : Packet) (s : State) (h : s.winTx + 1 ≠ s.winAck) :
    sendNew p s = { s with
      winSlot := setSlot s.winSlot s.winTx (some p)
      winTx := s.winTx + 1
      txSeq := s.winTx + 1
      ackPend := false
      rt := { armed := true, cnt := s.cfg.tRetx }
      crcTx := crcFold s.cfg.crcVariant crcResetX (s.cfg.stationAddr :: iCtrl s.winTx s.rxNext :: p)
      out := s.out ++ (frameLine s.cfg (s.cfg.stationAddr :: iCtrl s.winTx s.rxNext :: p)).map .line } := by
  have e : s.winTx + 1 - 1 = s.winTx := by simp
  simp only [sendNew, winQueue, if_neg h, Option.getD_some, peekIndex, e, sendI, armRT, emitFrame, emit,
    slotPacket, slotAt_setSlot_same]

/-- The fields that neither sending a new packet nor drain ever changes. -/
structure SameButSent (s t : State) : Prop where
  crcH : t.crcH = s.crcH
  crcRx : t.crcRx = s.crcRx
  rxState : t.rxState = s.rxState
  rxBuf : t.rxBuf = s.rxBuf
  rxLen : t.rxLen = s.rxLen
  rxOvr : t.rxOvr = s.rxOvr
  link : t.link = s.link
  rxNext : t.rxNext = s.rxNext
  winAck : t.winAck = s.winAck
  lt : t.lt = s.lt
  dispPend : t.dispPend = s.dispPend
  cfg : t.cfg = s.cfg
  input : t.input = s.input

theorem SameButSent.refl (s : State) : SameButSent s s := by constructor <;> rfl

theorem SameButSent.trans {s t u : State} (a : SameButSent s t) (b : SameButSent t u) : SameButSent s u where
  crcH := b.crcH.trans a.crcH
  crcRx := b.crcRx.trans a.crcRx
  rxState := b.rxState.trans a.rxState
  rxBuf := b.rxBuf.trans a.rxBuf
  rxLen := b.rxLen.trans a.rxLen
  rxOvr := b.rxOvr.trans a.rxOvr
  link := b.link.trans a.link
  rxNext := b.rxNext.trans a.rxNext
  winAck := b.winAck.trans a.winAck
  lt := b.lt.trans a.lt
  dispPend := b.dispPend.trans a.dispPend
  cfg := b.cfg.trans a.cfg
  input := b.input.trans a.input

theorem sendNew_same (p : Packet) (s : State) : SameButSent s (sendNew p s) := by
  by_cases h : s.winTx + 1 = s.winAck
  · simp only [sendNew, winQueue, if_pos h, Option.getD_none]
    constructor <;> rfl
  · rw [sendNew_eq p s h]; constructor <;> rfl

theorem sendNew_cnt (p : Packet) (s : State) : (sendNew p s).cnt = s.cnt := by
  by_cases h : s.winTx + 1 = s.winAck
  · simp only [sendNew, winQueue, if_pos h, Option.getD_none]; rfl
  · rw [sendNew_eq p s h]

theorem sendNew_inFifo (p : Packet) (s : State) : (sendNew p s).inFifo = s.inFifo := by
  by_cases h : s.winTx + 1 = s.winAck
  · simp only [sendNew, winQueue, if_pos h, Option.getD_none]; rfl
  · rw [sendNew_eq p s h]

theorem drainN_same (k : Nat) (s : State) : SameButSent s (drainN k s) := by
  induction k generalizing s with
  | zero => exact .refl s
  | succ k ih =>
    rw [drainN]
    split
    · exact .refl s
    · split
      · exact .trans (.trans (by constructor <;> rfl) (sendNew_same _ _)) (ih _)
      · exact .refl s

theorem drainN_cnt (k : Nat) (s : State) : (drainN k s).cnt = s.cnt := by
  induction k generalizing s with
  | zero => rfl
  | succ k ih =>
    rw [drainN]
    split
    · rfl
    · split
      · rw [ih, sendNew_cnt]
      · rfl

variable (s : State)

@[simp] theorem drain_crcH : (drain s).crcH = s.crcH := (drainN_same _ s).crcH
@[simp] theorem drain_crcRx : (drain s).crcRx = s.crcRx := (drainN_same _ s).crcRx
@[simp] theorem drain_rxState : (drain s).rxState = s.rxState := (drainN_same _ s).rxState
@[simp] theorem drain_rxBuf : (drain s).rxBuf = s.rxBuf := (drainN_same _ s).rxBuf
@[simp] theorem drain_rxLen : (drain s).rxLen = s.rxLen := (drainN_same _ s).rxLen
@[simp] theorem drain_rxOvr : (drain s).rxOvr = s.rxOvr := (drainN_same _ s).rxOvr
@[simp] theorem drain_link : (drain s).link = s.link := (drainN_same _ s).link
@[simp] theorem drain_rxNext : (drain s).rxNext = s.rxNext := (drainN_same _ s).rxNext
@[simp] theorem drain_winAck : (drain s).winAck = s.winAck := (drainN_same _ s).winAck
@[simp] theorem drain_lt : (drain s).lt = s.lt := (drainN_same _ s).lt
@[simp] theorem drain_dispPend : (drain s).dispPend = s.dispPend := (drainN_same _ s).dispPend
@[simp] theorem drain_cfg : (drain s).cfg = s.cfg := (drainN_same _ s).cfg
@[simp] theorem drain_input : (drain s).input = s.input := (drainN_same _ s).input
@[simp] theorem drain_cnt : (drain s).cnt = s.cnt := drainN_cnt _ s

/-- drain stops at once where the loop's condition fails. -/
theorem drain_stop {s : State}
    (h : ¬(s.link = .up ∧ s.inFifo ≠ [] ∧ winCount s < s.cfg.allowedInTransit)) : drain s = s := by
  rw [drain]
  cases hf : s.inFifo with
  | nil => rfl
  | cons p rest =>
    simp only [List.length_cons, drainN, hf]
    rw [if_neg]
    rintro ⟨h1, h2⟩
    exact h ⟨h1, by simp [hf], h2⟩

/-- drain takes one turn where the loop's condition holds, and goes on. -/
theorem drain_turn {s : State} {p : Packet} {rest : List Packet} (hf : s.inFifo = p :: rest)
    (hl : s.link = .up) (hc : winCount s < s.cfg.allowedInTransit) :
    drain s = drain (sendNew p { s with inFifo := rest }) := by
  rw [drain, drain, sendNew_inFifo]
  simp only [hf, List.length_cons, drainN, hl, hc, and_self, if_true]

/-- A turn of the loop that its condition stops. -/
theorem drainN_stop (k : Nat) {s : State}
    (h : ¬(s.link = .up ∧ s.inFifo ≠ [] ∧ winCount s < s.cfg.allowedInTransit)) : drainN k s = s := by
  cases k with
  | zero => rfl
  | succ k =>
    simp only [drainN]
    split
    · rfl
    · next p rest hf => rw [if_neg]; exact fun hc => h ⟨hc.1, by simp [hf], hc.2⟩

/-- A turn of the loop that its condition allows. -/
theorem drainN_turn (k : Nat) {s : State} {p : Packet} {rest : List Packet} (hf : s.inFifo = p :: rest)
    (hl : s.link = .up) (hc : winCount s < s.cfg.allowedInTransit) :
    drainN (k + 1) s = drainN k (sendNew p { s with inFifo := rest }) := by
  simp only [drainN, hf, hl, hc, and_self, if_true]

theorem sendNew_setDispPend (p : Packet) (b : Bool) (s : State) :
    sendNew p { s with dispPend := b } = { sendNew p s with dispPend := b } := by
  simp only [sendNew, winQueue]
  split_ifs <;> rfl

/-- drain neither reads nor writes DISP_PEND. -/
theorem drain_setDispPend (b : Bool) (s : State) :
    drain { s with dispPend := b } = { drain s with dispPend := b } := by
  have key : ∀ (k : Nat) (s : State), drainN k { s with dispPend := b } = { drainN k s with dispPend := b } := by
    intro k
    induction k with
    | zero => intro s; rfl
    | succ k ih =>
      intro s
      by_cases h : s.link = .up ∧ s.inFifo ≠ [] ∧ winCount s < s.cfg.allowedInTransit
      · obtain ⟨p, rest, hf⟩ := List.exists_cons_of_ne_nil h.2.1
        rw [drainN_turn k (s := s) hf h.1 h.2.2, drainN_turn k (s := { s with dispPend := b }) hf h.1 h.2.2, ← ih]
        congr 1
        exact sendNew_setDispPend p b { s with inFifo := rest }
      · rw [drainN_stop _ (s := s) h, drainN_stop _ (s := { s with dispPend := b }) h]
  exact key _ s

theorem sendNew_out (p : Packet) (s : State) : ∃ ls : List Byte, (sendNew p s).out = s.out ++ ls.map .line := by
  simp only [sendNew, winQueue]
  split_ifs <;> exact ⟨_, rfl⟩

/-- drain only appends LINE records to the output. -/
theorem drain_out (s : State) : ∃ ls : List Byte, (drain s).out = s.out ++ ls.map .line := by
  have key : ∀ (k : Nat) (s : State), ∃ ls : List Byte, (drainN k s).out = s.out ++ ls.map .line := by
    intro k
    induction k with
    | zero => exact fun s => ⟨[], by simp [drainN]⟩
    | succ k ih =>
      intro s
      by_cases h : s.link = .up ∧ s.inFifo ≠ [] ∧ winCount s < s.cfg.allowedInTransit
      · obtain ⟨p, rest, hf⟩ := List.exists_cons_of_ne_nil h.2.1
        rw [drainN_turn k hf h.1 h.2.2]
        obtain ⟨l1, h1⟩ := sendNew_out p { s with inFifo := rest }
        obtain ⟨l2, h2⟩ := ih (sendNew p { s with inFifo := rest })
        exact ⟨l1 ++ l2, by rw [h2, h1]; simp⟩
      · rw [drainN_stop _ h]; exact ⟨[], by simp⟩
  exact key _ s

/-! ### resend_window -/

/-- One turn of resend_window. -/
theorem resendN_succ (k : Nat) (i : U3) : resendN (k + 1) i s = resendN k (i + 1) (count .retx (sendI i s)) :=
  rfl

/-- All that resend_window does from slot i in k turns, but for the output and CRC_TX. -/
theorem resendN_eq (k : Nat) (i : U3) (s : State) :
    resendN k i s = { s with
      ackPend := if k = 0 then s.ackPend else false
      rt := if k = 0 then s.rt else { armed := true, cnt := s.cfg.tRetx }
      cnt := addCounter .retx k s.cnt
      crcTx := (resendN k i s).crcTx
      out := (resendN k i s).out } := by
  induction k generalizing i s with
  | zero => simp [resendN, addCounter]
  | succ k ih =>
    rw [resendN, ih]
    have e : s.cnt.retx + BitVec.ofNat 16 1 + BitVec.ofNat 16 k = s.cnt.retx + BitVec.ofNat 16 (k + 1) := by
      rw [BitVec.ofNat_add, add_assoc, add_comm (BitVec.ofNat 16 1)]
    by_cases hk : k = 0
    · subst hk; simp [count, sendI, armRT, emitFrame, emit, addCounter, e]
    · simp [count, sendI, armRT, emitFrame, emit, addCounter, hk, e]

/-- resend_window only appends LINE records to the output. -/
theorem resendN_out (k : Nat) (i : U3) (s : State) :
    ∃ ls : List Byte, (resendN k i s).out = s.out ++ ls.map .line := by
  induction k generalizing i s with
  | zero => exact ⟨[], by simp [resendN]⟩
  | succ k ih =>
    obtain ⟨l, h⟩ := ih (i + 1) (count .retx (sendI i s))
    refine ⟨frameLine s.cfg (s.cfg.stationAddr :: iCtrl i s.rxNext :: slotPacket s i) ++ l, ?_⟩
    rw [resendN, h]
    simp [count, sendI, armRT, emitFrame, emit]

end Sys2Proof.Machine
end

