-- ==== Sys2Proof/Laws/Receive.lean ====
section
/-!
SUPPORT. The receive path: what a received frame never touches, what classify runs, what a completed frame can
do, and what one accepted line byte can do, each said once.
-/

namespace Sys2Proof.Machine

/-! ### What the frame handlers leave unchanged -/

/-- The fields no received frame changes once it is complete. -/
structure SameRx (s t : State) : Prop where
  crcH : t.crcH = s.crcH
  crcRx : t.crcRx = s.crcRx
  rxState : t.rxState = s.rxState
  rxBuf : t.rxBuf = s.rxBuf
  rxLen : t.rxLen = s.rxLen
  rxOvr : t.rxOvr = s.rxOvr
  cfg : t.cfg = s.cfg
  input : t.input = s.input

theorem SameRx.refl (s : State) : SameRx s s := by constructor <;> rfl

theorem SameRx.trans {s t u : State} (a : SameRx s t) (b : SameRx t u) : SameRx s u where
  crcH := b.crcH.trans a.crcH
  crcRx := b.crcRx.trans a.crcRx
  rxState := b.rxState.trans a.rxState
  rxBuf := b.rxBuf.trans a.rxBuf
  rxLen := b.rxLen.trans a.rxLen
  rxOvr := b.rxOvr.trans a.rxOvr
  cfg := b.cfg.trans a.cfg
  input := b.input.trans a.input

theorem drain_sameRx (s : State) : SameRx s (drain s) := by constructor <;> simp

theorem ackUpTo_sameRx {n : U3} {s t : State} (h : ackUpTo n s = some t) : SameRx s t := by
  cases hv : nrValid s n with
  | false => simp [ackUpTo_invalid hv] at h
  | true =>
    obtain ⟨v, e, -⟩ := ackUpTo_valid hv
    obtain rfl := Option.some.inj (e.symm.trans h)
    constructor <;> rfl

theorem ackUpTo_getD_sameRx (n : U3) {s d : State} (h : SameRx s d) : SameRx s ((ackUpTo n s).getD d) := by
  cases e : ackUpTo n s with
  | none => exact h
  | some t => exact ackUpTo_sameRx e

theorem resendWindow_sameRx (s : State) : SameRx s (resendWindow s) := by
  rw [resendWindow, resendN_eq]; constructor <;> rfl

theorem handleI_sameRx (ns nr : U3) (p : Packet) (s : State) : SameRx s (handleI ns nr p s) := by
  simp only [handleI]
  split
  · constructor <;> rfl
  · split
    · constructor <;> rfl
    · have h := ackUpTo_getD_sameRx nr (s := s) (d := count .badNr s) (by constructor <;> rfl)
      exact h.trans (by constructor <;> simp)

theorem guardS_sameRx (nr : U3) (act : State → State) (s : State) (h : SameRx s (act s)) :
    SameRx s (guardS nr act s) := by
  simp only [guardS]
  split
  · constructor <;> rfl
  · split
    · exact h
    · constructor <;> rfl

theorem ackAndDrain_sameRx (nr : U3) (s : State) : SameRx s (ackAndDrain nr s) :=
  (ackUpTo_getD_sameRx nr (.refl s)).trans (drain_sameRx _)

theorem ackAndResend_sameRx (nr : U3) (s : State) : SameRx s (ackAndResend nr s) := by
  refine (ackUpTo_getD_sameRx nr (.refl s)).trans ?_
  simp only [ackAndResend]
  split
  · exact (resendWindow_sameRx _).trans (drain_sameRx _)
  · exact drain_sameRx _

theorem handleS_sameRx (fn : BitVec 2) (nr : U3) (s : State) : SameRx s (handleS fn nr s) := by
  simp only [handleS, recvRr, recvRnr, recvRej, recvSrej]
  split_ifs <;> apply guardS_sameRx <;> first | exact ackAndDrain_sameRx nr s | exact ackAndResend_sameRx nr s

theorem goUp_sameRx (s : State) : SameRx s (goUp s) := by constructor <;> simp [goUp]

theorem handleU_sameRx (code : Byte) (p : Packet) (s : State) : SameRx s (handleU code p s) := by
  simp only [handleU, recvSnrm, recvUa, recvDm, recvDisc, recvUi, recvUnknownU]
  split_ifs <;> first
    | exact .refl s
    | exact SameRx.trans (by constructor <;> rfl) (goUp_sameRx _)
    | (constructor <;> rfl)

/-- classify changes no field of the receive path, nor CRC_H, the parameters or the command stream. -/
theorem classify_sameRx (ctrl : Byte) (p : Packet) (s : State) : SameRx s (classify ctrl p s) := by
  simp only [classify]
  split_ifs
  · exact handleI_sameRx ..
  · exact handleS_sameRx ..
  · exact handleU_sameRx ..

/-- classify runs the instruction the frame decodes to (42_frame_parser.md R176, 43_link_engine.md R195,
44_arq_window.md R232). -/
theorem exec_decodeFrame (ctrl : Byte) (p : Packet) (s : State) :
    exec (decodeFrame ctrl p) s = .next (classify ctrl p s) := by
  simp only [decodeFrame, classify, handleS, handleU]
  split_ifs <;> rfl

/-! ### A completed frame -/

theorem rxFrame_ok {s : State} (h : s.rxLen ≤ s.cfg.maxFrame) :
    rxFrame s = .ok ((List.range s.rxLen).map (rxRead s)) := if_pos h

theorem frameCtrl_rxBytes {s : State} (h : 4 ≤ s.rxLen) :
    frameCtrl ((List.range s.rxLen).map (rxRead s)) = rxRead s 1 := by
  have : 1 < s.rxLen := by omega
  simp [frameCtrl, List.getD_eq_getElem?_getD, this]

theorem framePayload_rxBytes (s : State) :
    framePayload ((List.range s.rxLen).map (rxRead s)) =
      (List.range (s.rxLen - 4)).map fun i => rxRead s (i + 2) := by
  apply List.ext_getElem
  · simp [framePayload]; omega
  · intro i h1 h2
    simp [framePayload, Nat.add_comm]

/-- The received FCS of the buffered bytes, in terms of RX_BUF's last two addresses (R173). -/
theorem fcsReceived_rxBytes {s : State} (h : 4 ≤ s.rxLen) :
    fcsReceived s.cfg.fcsOrder ((List.range s.rxLen).map (rxRead s)) = bufferedFcs s := by
  have h1 : s.rxLen - 2 < s.rxLen := by omega
  have h2 : s.rxLen - 1 < s.rxLen := by omega
  cases ho : s.cfg.fcsOrder <;>
    simp only [fcsReceived, bufferedFcs, ho, List.getD_eq_getElem?_getD, List.length_map, List.length_range,
      List.getElem?_map, List.getElem?_range h1, List.getElem?_range h2, Option.map_some, Option.getD_some]

/-- frame_complete on an overrun frame (R171). -/
theorem frameComplete_overrun {s : State} (h : s.rxOvr = true) : frameComplete s = .ok (count .overrun s) := by
  simp [frameComplete, h]

/-- frame_complete on a short frame (R172). -/
theorem frameComplete_short {s : State} (h : s.rxOvr = false) (h4 : s.rxLen < 4) :
    frameComplete s = .ok (count .short s) := by simp [frameComplete, h, h4]

/-- frame_complete on a frame whose FCS is wrong (R174). -/
theorem frameComplete_badFcs {s : State} (h : s.rxOvr = false) (h4 : 4 ≤ s.rxLen)
    (hm : s.rxLen ≤ s.cfg.maxFrame)
    (hf : fcsReceived s.cfg.fcsOrder ((List.range s.rxLen).map (rxRead s)) ≠ s.crcRx.h2 ^^^ s.cfg.crcXorout) :
    frameComplete s = .ok (count .crcErr s) := by
  simp [frameComplete, h, Nat.not_lt.2 h4, rxFrame_ok hm, crcGetLastX, hf]

/-- frame_complete on a frame that passes its checks (R175, R176). -/
theorem frameComplete_good {s : State} (h : s.rxOvr = false) (h4 : 4 ≤ s.rxLen) (hm : s.rxLen ≤ s.cfg.maxFrame)
    (hf : fcsReceived s.cfg.fcsOrder ((List.range s.rxLen).map (rxRead s)) = s.crcRx.h2 ^^^ s.cfg.crcXorout) :
    frameComplete s =
      .ok (classify (rxRead s 1) ((List.range (s.rxLen - 4)).map fun i => rxRead s (i + 2)) s) := by
  simp [frameComplete, h, Nat.not_lt.2 h4, rxFrame_ok hm, crcGetLastX, hf, frameCtrl_rxBytes h4,
    framePayload_rxBytes]

/-- All that frame_complete can do. -/
theorem frameComplete_cases {s t : State} (h : frameComplete s = .ok t) :
    (s.rxOvr = true ∧ t = count .overrun s) ∨
    (s.rxOvr = false ∧ s.rxLen < 4 ∧ t = count .short s) ∨
    (s.rxOvr = false ∧ 4 ≤ s.rxLen ∧ s.rxLen ≤ s.cfg.maxFrame ∧ t = count .crcErr s ∧
      fcsReceived s.cfg.fcsOrder ((List.range s.rxLen).map (rxRead s)) ≠ s.crcRx.h2 ^^^ s.cfg.crcXorout) ∨
    (s.rxOvr = false ∧ 4 ≤ s.rxLen ∧ s.rxLen ≤ s.cfg.maxFrame ∧
      t = classify (rxRead s 1) ((List.range (s.rxLen - 4)).map fun i => rxRead s (i + 2)) s ∧
      fcsReceived s.cfg.fcsOrder ((List.range s.rxLen).map (rxRead s)) = s.crcRx.h2 ^^^ s.cfg.crcXorout) := by
  cases ho : s.rxOvr with
  | true => rw [frameComplete_overrun ho] at h; exact .inl ⟨rfl, (Except.ok.inj h).symm⟩
  | false =>
    by_cases h4 : s.rxLen < 4
    · rw [frameComplete_short ho h4] at h; exact .inr (.inl ⟨rfl, h4, (Except.ok.inj h).symm⟩)
    · have h4 := Nat.not_lt.1 h4
      by_cases hm : s.rxLen ≤ s.cfg.maxFrame
      · by_cases hf : fcsReceived s.cfg.fcsOrder ((List.range s.rxLen).map (rxRead s)) =
            s.crcRx.h2 ^^^ s.cfg.crcXorout
        · rw [frameComplete_good ho h4 hm hf] at h
          exact .inr (.inr (.inr ⟨rfl, h4, hm, (Except.ok.inj h).symm, hf⟩))
        · rw [frameComplete_badFcs ho h4 hm hf] at h
          exact .inr (.inr (.inl ⟨rfl, h4, hm, (Except.ok.inj h).symm, hf⟩))
      · simp [frameComplete, ho, Nat.not_lt.2 h4, rxFrame, hm] at h

/-- frame_complete faults only where RX_LEN passes P_MAX_FRAME. -/
theorem frameComplete_ok {s : State} (h : s.rxLen ≤ s.cfg.maxFrame) : ∃ t, frameComplete s = .ok t := by
  simp only [frameComplete, rxFrame_ok h]
  split_ifs <;> exact ⟨_, rfl⟩

/-! ### One line byte -/

/-- rx_store with room (R148). -/
theorem rxStore_room {s : State} (b : Byte) (h : s.rxLen < s.cfg.maxFrame) :
    rxStore b s = { s with
      rxBuf := Memory.write s.rxBuf s.rxLen b
      rxLen := s.rxLen + 1
      crcRx := crcUpdateX s.cfg.crcVariant s.crcRx b } := by simp [rxStore, h, rxWrite]

/-- rx_store on a full buffer (R148). -/
theorem rxStore_full {s : State} (b : Byte) (h : s.cfg.maxFrame ≤ s.rxLen) :
    rxStore b s = { s with rxOvr := true } := by simp [rxStore, Nat.not_lt.2 h]

/-- All that one accepted line byte can do. -/
theorem rxAccept_cases {b : Byte} {s t : State} (h : rxAccept b s = .ok t) :
    t = s ∨
    (b = flagByte ∧ s.rxState ≠ .escaping ∧ t = { rxOpen s with rxState := .inFrame }) ∨
    (b = escByte ∧ s.rxState = .inFrame ∧ t = { s with rxState := .escaping }) ∨
    (s.rxState ≠ .idle ∧ ∃ c, t = { rxStore c s with rxState := .inFrame }) ∨
    (b = flagByte ∧ s.rxState = .inFrame ∧ 0 < s.rxLen ∧ frameComplete { s with rxState := .idle } = .ok t) := by
  cases hs : s.rxState with
  | idle =>
    simp only [rxAccept, hs, rxIdle] at h
    split_ifs at h with hb
    · exact .inr (.inl ⟨hb, by simp, (Except.ok.inj h).symm⟩)
    · exact .inl (Except.ok.inj h).symm
  | inFrame =>
    simp only [rxAccept, hs, rxInFrame] at h
    split_ifs at h with h1 h2 h3
    · exact .inr (.inr (.inl ⟨h1, rfl, (Except.ok.inj h).symm⟩))
    · exact .inr (.inr (.inr (.inr ⟨h2, rfl, h3, h⟩)))
    · refine .inr (.inl ⟨h2, by simp, (Except.ok.inj h).symm.trans ?_⟩)
      simp [rxOpen, hs]
    · refine .inr (.inr (.inr (.inl ⟨by simp, b, (Except.ok.inj h).symm.trans ?_⟩)))
      simp only [rxStore]
      split_ifs <;> simp [rxWrite, hs]
  | escaping =>
    simp only [rxAccept, hs, rxEscaping] at h
    split_ifs at h with h1
    · exact .inl (Except.ok.inj h).symm
    · exact .inr (.inr (.inr (.inl ⟨by simp, _, (Except.ok.inj h).symm⟩)))

/-- A line byte faults only where RX_LEN passes P_MAX_FRAME. -/
theorem rxAccept_ok (b : Byte) {s : State} (h : s.rxLen ≤ s.cfg.maxFrame) : ∃ t, rxAccept b s = .ok t := by
  simp only [rxAccept, rxInFrame]
  split
  · exact ⟨_, rfl⟩
  · split_ifs
    · exact ⟨_, rfl⟩
    · exact frameComplete_ok (s := { s with rxState := .idle }) h
    · exact ⟨_, rfl⟩
    · exact ⟨_, rfl⟩
  · exact ⟨_, rfl⟩

/-- RX_BYTE while no delivery is pending, where the byte is accepted. -/
theorem execRxByte_ok {b : Byte} {s t : State} (hd : s.dispPend = false) (h : rxAccept b s = .ok t) :
    execRxByte b s = .next (respond .ok [] t) := by simp [execRxByte, hd, h]

/-- All that RX_BYTE can do. -/
theorem execRxByte_cases {b : Byte} {s u : State} (h : execRxByte b s = .next u) :
    (s.dispPend = true ∧ u = respond .busy [] s) ∨
    (s.dispPend = false ∧ ∃ t, rxAccept b s = .ok t ∧ u = respond .ok [] t) := by
  cases hd : s.dispPend with
  | true => simp [execRxByte, hd] at h; exact .inl ⟨rfl, h.symm⟩
  | false =>
    cases ha : rxAccept b s with
    | error f => simp [execRxByte, hd, ha] at h
    | ok t => rw [execRxByte_ok hd ha] at h; exact .inr ⟨rfl, t, rfl, (Host.Outcome.next.inj h).symm⟩

end Sys2Proof.Machine
end

