-- ==== Sys2Proof/Laws/Invariant.lean ====
section
/-!
SUPPORT. The parts of State.Inv depend on some fields only: each part carries over to a state that agrees on
those.
-/

namespace Sys2Proof.Machine

/-- RxInv depends on the receive path's fields and the parameters. -/
theorem State.RxInv.congr {s t : State} (hs : s.RxInv) (hb : t.rxBuf = s.rxBuf) (hn : t.rxLen = s.rxLen)
    (ho : t.rxOvr = s.rxOvr) (hc : t.crcRx = s.crcRx) (hp : t.cfg = s.cfg) : t.RxInv where
  canonical := hb ▸ hs.canonical
  addresses := by rw [hb, hp]; exact hs.addresses
  length := by rw [hn, hp]; exact hs.length
  written := by rw [hn, hb]; exact hs.written
  crc := by rw [hc, hp, hn, show rxRead t = rxRead s from funext (rxRead_congr hb)]; exact hs.crc
  overrun := by rw [ho, hn, hp]; exact hs.overrun

/-- WindowInv depends on the window, the FIFO and the parameters. -/
theorem State.WindowInv.congr {s t : State} (hs : s.WindowInv) (hq : t.txSeq = s.txSeq)
    (hw : t.winSlot = s.winSlot) (ha : t.winAck = s.winAck) (hx : t.winTx = s.winTx) (hf : t.inFifo = s.inFifo)
    (hp : t.cfg = s.cfg) : t.WindowInv where
  txSeq := by rw [hq, hx]; exact hs.txSeq
  count := by rw [winCount_congr hx ha, hp]; exact hs.count
  slots := by rw [hw, ha, winCount_congr hx ha]; exact hs.slots
  slotLength := by rw [hw, hp]; exact hs.slotLength
  fifo := by rw [hf, hp]; exact hs.fifo
  fifoLength := by rw [hf, hp]; exact hs.fifoLength

/-- TimerInv depends on the timers, LINK and the two ends of the window. -/
theorem State.TimerInv.congr {s t : State} (hs : s.TimerInv) (hl : t.lt = s.lt) (hr : t.rt = s.rt)
    (hk : t.link = s.link) (ha : t.winAck = s.winAck) (hx : t.winTx = s.winTx) : t.TimerInv where
  lt := by rw [hl, hk]; exact hs.lt
  rt := by rw [hr, hk, winCount_congr hx ha]; exact hs.rt
  ltCount := by rw [hl]; exact hs.ltCount
  rtCount := by rw [hr]; exact hs.rtCount

/-- A received frame leaves RxInv as it is. -/
theorem State.RxInv.of_same {s t : State} (hs : s.RxInv) (h : SameRx s t) : t.RxInv :=
  hs.congr h.rxBuf h.rxLen h.rxOvr h.crcRx h.cfg

end Sys2Proof.Machine
end

