-- ==== Sys2Proof/Laws/PerInstr.lean ====
section
/-!
SUPPORT. Statements made of every instruction, one lemma per constructor.
-/

namespace Sys2Proof.Laws

/-- The (mask, match) pairs of the opcode-table rows with an instruction's mnemonic: 30_encoding.md R82 (commands),
R83 (the 17 rows of RESERVED), R88 to R91 (the control bytes of the frame classes). -/
def tableRows : Instr → List (Byte × Byte)
  | .nop => [(0xFF, 0x00)]
  | .softReset => [(0xFF, 0x01)]
  | .readReg _ => [(0xFF, 0x02)]
  | .crcReset => [(0xFF, 0x10)]
  | .crcUpdate _ => [(0xFF, 0x11)]
  | .crcGet => [(0xFF, 0x12)]
  | .crcGetLast => [(0xFF, 0x13)]
  | .rxByte _ => [(0xFF, 0x20)]
  | .stuff _ => [(0xFF, 0x21)]
  | .connect => [(0xFF, 0x30)]
  | .disconnect => [(0xFF, 0x31)]
  | .submit _ => [(0xFF, 0x32)]
  | .dispatchDone => [(0xFF, 0x33)]
  | .tick => [(0xFF, 0x40)]
  | .reserved _ =>
    [(0xFF, 0x03), (0xFC, 0x04), (0xF8, 0x08), (0xFC, 0x14), (0xF8, 0x18), (0xFE, 0x22), (0xFC, 0x24),
     (0xF8, 0x28), (0xFC, 0x34), (0xF8, 0x38), (0xFF, 0x41), (0xFE, 0x42), (0xFC, 0x44), (0xF8, 0x48),
     (0xF0, 0x50), (0xE0, 0x60), (0x80, 0x80)]
  | .iFrame .. => [(0x01, 0x00)]
  | .rr .. => [(0x0F, 0x01)]
  | .rnr .. => [(0x0F, 0x05)]
  | .rej .. => [(0x0F, 0x09)]
  | .srej .. => [(0x0F, 0x0D)]
  | .snrm .. => [(0xEF, 0x83)]
  | .ua .. => [(0xEF, 0x63)]
  | .dm .. => [(0xEF, 0x0F)]
  | .disc .. => [(0xEF, 0x43)]
  | .ui .. => [(0xEF, 0x03)]
  | .uUnknown .. => [(0x03, 0x03)]

/-- The instruction's encoding begins with a byte that one of its opcode-table rows matches. -/
def EncodeHead.Statement (i : Instr) : Prop :=
  i.wf = true → ∃ b rest, encode i = b :: rest ∧ ∃ row ∈ tableRows i, b &&& row.1 = row.2

theorem encodeHead_of_row {i : Instr} {b : Byte} {rest : List Byte} {row : Byte × Byte}
    (h : encode i = b :: rest) (hr : row ∈ tableRows i) (hm : b &&& row.1 = row.2) : EncodeHead.Statement i :=
  fun _ => ⟨b, rest, h, row, hr, hm⟩

theorem EncodeHead.nop : EncodeHead.Statement .nop := encodeHead_of_row rfl (.head _) rfl
theorem EncodeHead.softReset : EncodeHead.Statement .softReset := encodeHead_of_row rfl (.head _) rfl
theorem EncodeHead.readReg (b : Byte) : EncodeHead.Statement (.readReg b) := encodeHead_of_row rfl (.head _) rfl
theorem EncodeHead.crcReset : EncodeHead.Statement .crcReset := encodeHead_of_row rfl (.head _) rfl
theorem EncodeHead.crcUpdate (b : Byte) : EncodeHead.Statement (.crcUpdate b) := encodeHead_of_row rfl (.head _) rfl
theorem EncodeHead.crcGet : EncodeHead.Statement .crcGet := encodeHead_of_row rfl (.head _) rfl
theorem EncodeHead.crcGetLast : EncodeHead.Statement .crcGetLast := encodeHead_of_row rfl (.head _) rfl
theorem EncodeHead.rxByte (b : Byte) : EncodeHead.Statement (.rxByte b) := encodeHead_of_row rfl (.head _) rfl
theorem EncodeHead.stuff (b : Byte) : EncodeHead.Statement (.stuff b) := encodeHead_of_row rfl (.head _) rfl
theorem EncodeHead.connect : EncodeHead.Statement .connect := encodeHead_of_row rfl (.head _) rfl
theorem EncodeHead.disconnect : EncodeHead.Statement .disconnect := encodeHead_of_row rfl (.head _) rfl
theorem EncodeHead.submit (payload : Packet) : EncodeHead.Statement (.submit payload) :=
  encodeHead_of_row rfl (.head _) rfl
theorem EncodeHead.dispatchDone : EncodeHead.Statement .dispatchDone := encodeHead_of_row rfl (.head _) rfl
theorem EncodeHead.tick : EncodeHead.Statement .tick := encodeHead_of_row rfl (.head _) rfl

theorem EncodeHead.reserved (opcode : Byte) : EncodeHead.Statement (.reserved opcode) := by
  have key : ∀ op : Byte, isReservedOpcode op = true → ∃ row ∈ tableRows (.reserved op), op &&& row.1 = row.2 := by
    decide +kernel
  exact fun h => ⟨opcode, [], rfl, key opcode h⟩

theorem EncodeHead.iFrame (ns nr : U3) (pf : Bool) (payload : Packet) :
    EncodeHead.Statement (.iFrame ns nr pf payload) := by
  have key : ∀ (ns nr : U3) (pf : Bool), withPf pf (iCtrl ns nr) &&& 0x01 = 0x00 := by decide +kernel
  exact encodeHead_of_row rfl (.head _) (key ns nr pf)

/-- The low four bits of an S-frame's control byte, whatever N(R) and P/F. -/
theorem sCtrl_low (fn : BitVec 2) (nr : U3) (pf : Bool) :
    withPf pf (sCtrl fn nr) &&& 0x0F = (fn.setWidth 8 <<< 2) ||| 0x01 := by
  have key : ∀ (fn : BitVec 2) (nr : U3) (pf : Bool),
      withPf pf (sCtrl fn nr) &&& 0x0F = (fn.setWidth 8 <<< 2) ||| 0x01 := by decide +kernel
  exact key fn nr pf

theorem EncodeHead.rr (nr : U3) (pf : Bool) (info : Packet) : EncodeHead.Statement (.rr nr pf info) :=
  encodeHead_of_row rfl (.head _) (sCtrl_low fnRR nr pf)
theorem EncodeHead.rnr (nr : U3) (pf : Bool) (info : Packet) : EncodeHead.Statement (.rnr nr pf info) :=
  encodeHead_of_row rfl (.head _) (sCtrl_low fnRNR nr pf)
theorem EncodeHead.rej (nr : U3) (pf : Bool) (info : Packet) : EncodeHead.Statement (.rej nr pf info) :=
  encodeHead_of_row rfl (.head _) (sCtrl_low fnREJ nr pf)
theorem EncodeHead.srej (nr : U3) (pf : Bool) (info : Packet) : EncodeHead.Statement (.srej nr pf info) :=
  encodeHead_of_row rfl (.head _) (sCtrl_low fnSREJ nr pf)

theorem EncodeHead.snrm (pf : Bool) (info : Packet) : EncodeHead.Statement (.snrm pf info) :=
  encodeHead_of_row rfl (.head _) (by cases pf <;> rfl)
theorem EncodeHead.ua (pf : Bool) (info : Packet) : EncodeHead.Statement (.ua pf info) :=
  encodeHead_of_row rfl (.head _) (by cases pf <;> rfl)
theorem EncodeHead.dm (pf : Bool) (info : Packet) : EncodeHead.Statement (.dm pf info) :=
  encodeHead_of_row rfl (.head _) (by cases pf <;> rfl)
theorem EncodeHead.disc (pf : Bool) (info : Packet) : EncodeHead.Statement (.disc pf info) :=
  encodeHead_of_row rfl (.head _) (by cases pf <;> rfl)
theorem EncodeHead.ui (pf : Bool) (payload : Packet) : EncodeHead.Statement (.ui pf payload) :=
  encodeHead_of_row rfl (.head _) (by cases pf <;> rfl)

theorem EncodeHead.uUnknown (code : Byte) (pf : Bool) (info : Packet) :
    EncodeHead.Statement (.uUnknown code pf info) := by
  have key : ∀ (code : Byte) (pf : Bool), isUnknownUCode code = true → withPf pf code &&& 0x03 = 0x03 := by
    decide +kernel
  intro h
  have hc : isUnknownUCode code = true := (Bool.and_eq_true_iff.1 h).1
  exact encodeHead_of_row rfl (.head _) (key code pf hc) h

end Sys2Proof.Laws
end

