-- ==== Sys2Proof/Tests/Slice0.lean ====
section
/-!
SUPPORT. Tests: the well-formedness smoke, decoding of words written out from 30_encoding.md R82, R83 and R88 to
R91, one or two single steps per instruction with the expected results of 95_test_vectors.md (named in each
comment), and for every statement with hypotheses a state and operands that meet them (witness_<statement>).
-/

namespace Sys2Proof.Tests

open Sys2Proof Sys2Proof.Machine

/-! ### Well-formedness: one ill-formed term per check -/

theorem test_wf_submit : Instr.wf (.submit (List.replicate 256 0xAA)) = false := by decide +kernel
theorem test_wf_reserved : Instr.wf (.reserved 0x02) = false := by decide
theorem test_wf_frame : Instr.wf (.iFrame 0 0 false (List.replicate 256 0xAA)) = false := by decide +kernel
theorem test_wf_code : Instr.wf (.uUnknown 0x83 false []) = false := by decide
theorem test_wf_code_pf : Instr.wf (.uUnknown 0x3F false []) = false := by decide
theorem test_wf_code_info : Instr.wf (.uUnknown 0x2F false (List.replicate 256 0xAA)) = false := by decide +kernel

/-! ### Decoding -/

/-- R82, R83: each command from its bytes. -/
theorem test_decode_commands :
    decode [0x00] = .ok (.nop, []) ∧ decode [0x01] = .ok (.softReset, []) ∧
    decode [0x02, 0x37] = .ok (.readReg 0x37, []) ∧ decode [0x10] = .ok (.crcReset, []) ∧
    decode [0x11, 0x83] = .ok (.crcUpdate 0x83, []) ∧ decode [0x12] = .ok (.crcGet, []) ∧
    decode [0x13] = .ok (.crcGetLast, []) ∧ decode [0x20, 0x7E] = .ok (.rxByte 0x7E, []) ∧
    decode [0x21, 0x7D] = .ok (.stuff 0x7D, []) ∧ decode [0x30] = .ok (.connect, []) ∧
    decode [0x31] = .ok (.disconnect, []) ∧
    decode [0x32, 0x03, 0x01, 0x02, 0x03, 0x33] = .ok (.submit [0x01, 0x02, 0x03], [0x33]) ∧
    decode [0x33] = .ok (.dispatchDone, []) ∧ decode [0x40] = .ok (.tick, []) ∧
    decode [0x03] = .ok (.reserved 0x03, []) ∧ decode [0x41, 0x00] = .ok (.reserved 0x41, [0x00]) := by
  and_intros <;> rfl

/-- R88 to R91: each frame class from its control byte. -/
theorem test_decode_frames :
    decodeFrame 0b10101110 [0xAA] = .iFrame 7 5 false [0xAA] ∧ decodeFrame 0b11100001 [] = .rr 7 false [] ∧
    decodeFrame 0b00110101 [] = .rnr 1 true [] ∧ decodeFrame 0b00101001 [] = .rej 1 false [] ∧
    decodeFrame 0b01001101 [] = .srej 2 false [] ∧ decodeFrame 0b10010011 [] = .snrm true [] ∧
    decodeFrame 0b01100011 [] = .ua false [] ∧ decodeFrame 0b00001111 [] = .dm false [] ∧
    decodeFrame 0b01000011 [] = .disc false [] ∧ decodeFrame 0b00000011 [0x4E] = .ui false [0x4E] ∧
    decodeFrame 0b00101111 [] = .uUnknown 0x2F false [] := by decide

/-- R97: a command whose bytes are not all there. -/
theorem test_decode_incomplete :
    decode [0x32, 0x02, 0xAA] = .error (.missingPayload 2 1) ∧ decode [0x20] = .error (.missingOperand 0x20) := by
  and_intros <;> rfl

/-- The host's two probes on the rows SUBMIT (operand bytes absent) and RX_BYTE. -/
theorem test_table_word :
    decodeTableWord 8 0x32 = some (.submit []) ∧ decodeTableWord 16 0x7E20 = some (.rxByte 0x7E) := by
  decide +kernel

/-! ### Helpers -/

/-- The instruction gives a next state with just these records appended and this property. -/
def gives (i : Instr) (s : State) (new : List Output) (p : State → Bool) : Bool :=
  match exec i s with
  | .next t => t.out == s.out ++ new && p t
  | .fault _ => false
  | .refused _ => false

/-- A response with status OK and no data. -/
def okResp : Output := .resp .ok []

def upState : State := { State.reset with link := .up }

def connectingState : State :=
  { State.reset with link := .connecting, lt := { armed := true, cnt := 1000 } }

/-- Up, [AA] in flight in slot 0. -/
def sentState : State := { upState with
  winSlot := setSlot upState.winSlot 0 (some [0xAA]), winTx := 1, txSeq := 1
  rt := { armed := true, cnt := 1000 } }

/-- Up, [A1], [A2] in flight in slots 7 and 0, with room for three: the sequence wraps. -/
def wrapState : State := { upState with
  cfg := { Params.default with allowedInTransit := 3 }
  winSlot := setSlot (setSlot upState.winSlot 7 (some [0xA1])) 0 (some [0xA2])
  winAck := 7, winTx := 1, txSeq := 1, rt := { armed := true, cnt := 5 } }

def pendingState : State := { upState with dispPend := true, ackPend := true, rxNext := 1 }

/-- Receiving, with these bytes stored. -/
def rxState (bs : List Byte) : State := { State.reset with
  rxState := .inFrame, rxLen := bs.length, rxBuf := bs.mapIdx fun i b => (i, b)
  crcRx := crcFold .reflected8408 crcResetX bs }

/-- The SNRM frame FF 83 EB B9 before its closing flag (V-FR-1). -/
def snrmStored : State := rxState [0xFF, 0x83, 0xEB, 0xB9]

/-! ### One step per instruction -/

/-- V-C-1 -/
theorem test_nop : gives .nop upState [okResp] (fun t => t == { upState with out := [okResp] }) = true := by
  decide +kernel
/-- V-C-11 -/
theorem test_softReset : gives .softReset { pendingState with cnt := { Counters.zero with winDiscard := 9 } } [okResp]
    (fun t => t == { State.reset with out := [okResp] }) = true := by decide +kernel
/-- V-C-4 -/
theorem test_readReg : gives (.readReg 0x34) State.reset [.resp .ok [0xE8, 0x03]] (fun _ => true) = true := by
  decide +kernel
/-- V-C-7 -/
theorem test_readReg_unmapped :
    gives (.readReg 0x18) State.reset [.resp .illegal []] (fun _ => true) = true := by decide +kernel
/-- V-CRC-17 -/
theorem test_crcReset : gives .crcReset { State.reset with crcH := { val := 0, h1 := 1, h2 := 2 } } [okResp]
    (fun t => t.crcH == { val := 0xFFFF, h1 := 0xFFFF, h2 := 0xFFFF }) = true := by decide +kernel
/-- V-CRC-5, V-CRC-11 -/
theorem test_crcUpdate : gives (.crcUpdate 0x00) State.reset [okResp]
    (fun t => t.crcH == { val := 0x0F87, h1 := 0xFFFF, h2 := 0xFFFF }) = true := by decide +kernel
/-- V-CRC-9: the MSB_FIRST_1021 CRC of FF 83 -/
theorem test_crcUpdate_msb : (crcFold .msbFirst1021 crcResetX [0xFF, 0x83]).val = 0xBF1B := by decide +kernel
/-- V-CRC-13 -/
theorem test_crcGet : gives .crcGet { State.reset with crcH := { val := 0xB9EB, h1 := 0x00FF, h2 := 0xFFFF } }
    [.resp .ok [0xEB, 0xB9]] (fun _ => true) = true := by decide +kernel
/-- V-CRC-14 -/
theorem test_crcGetLast : gives .crcGetLast { State.reset with crcH := { val := 0xB9EB, h1 := 0x00FF, h2 := 0xFFFE } }
    [.resp .ok [0xFE, 0xFF]] (fun _ => true) = true := by decide +kernel
/-- V-ST-1 -/
theorem test_stuff_flag : gives (.stuff 0x7E) State.reset [.resp .ok [0x02, 0x7D, 0x5E]] (fun _ => true) = true := by
  decide +kernel
/-- V-ST-3 -/
theorem test_stuff_plain : gives (.stuff 0x5E) State.reset [.resp .ok [0x01, 0x5E]] (fun _ => true) = true := by
  decide +kernel
/-- V-RX-8: the closing flag of SNRM -/
theorem test_rxByte_close : gives (.rxByte 0x7E) snrmStored
    (([0x7E, 0xFF, 0x63, 0xE5, 0x5E, 0x7E] : List Byte).map .line ++ [.linkUp, okResp])
    (fun t => t.rxState == .idle && t.rxLen == 4 && t.link == .up) = true := by decide +kernel
/-- V-RX-4: a flag in Escaping is stored as 5E -/
theorem test_rxByte_escape : gives (.rxByte 0x7E) { rxState [0xFF] with rxState := .escaping } [okResp]
    (fun t => t.rxState == .inFrame && t.rxLen == 2 && Memory.read t.rxBuf 1 == some 0x5E) = true := by
  decide +kernel
/-- V-L-1 -/
theorem test_connect : gives .connect State.reset
    (([0x7E, 0xFF, 0x83, 0xEB, 0xB9, 0x7E] : List Byte).map .line ++ [okResp])
    (fun t => t.link == .connecting && t.lt == { armed := true, cnt := 1000 }) = true := by decide +kernel
/-- V-L-4 -/
theorem test_connect_up : gives .connect upState [.resp .badState []] (fun t => t.link == .up) = true := by
  decide +kernel
/-- V-L-9 -/
theorem test_disconnect : gives .disconnect connectingState
    (([0x7E, 0xFF, 0x43, 0xE7, 0x7F, 0x7E] : List Byte).map .line ++ [.linkDown .loc, okResp])
    (fun t => t.link == .down && t.lt == Timer.off) = true := by decide +kernel
/-- V-SU-5 -/
theorem test_submit : gives (.submit [0xAA]) upState
    (([0x7E, 0xFF, 0x00, 0xAA, 0x90, 0xF5, 0x7E] : List Byte).map .line ++ [okResp])
    (fun t => t.txSeq == 1 && t.winTx == 1 && t.rt == { armed := true, cnt := 1000 }) = true := by decide +kernel
/-- V-SU-2 -/
theorem test_submit_tooLong : gives (.submit (List.replicate 125 0x55)) State.reset [.resp .tooLong []]
    (fun t => t.inFifo == []) = true := by decide +kernel
/-- V-I-3 -/
theorem test_dispatchDone : gives .dispatchDone pendingState
    (([0x7E, 0xFF, 0x21, 0xF3, 0x3F, 0x7E] : List Byte).map .line ++ [okResp])
    (fun t => !t.dispPend && !t.ackPend) = true := by decide +kernel
/-- V-D-8 -/
theorem test_dispatchDone_idle : gives .dispatchDone upState [.resp .badState []] (fun _ => true) = true := by
  decide +kernel
/-- V-T-3 -/
theorem test_tick_link : gives .tick { connectingState with
      lt := { armed := true, cnt := 1 }, cfg := { Params.default with tLink := 2 } }
    (([0x7E, 0xFF, 0x83, 0xEB, 0xB9, 0x7E] : List Byte).map .line ++ [okResp])
    (fun t => t.lt == { armed := true, cnt := 2 }) = true := by decide +kernel
/-- V-T-5 -/
theorem test_tick_retx : gives .tick { sentState with
      rt := { armed := true, cnt := 1 }, cfg := { Params.default with tRetx := 3 } }
    (([0x7E, 0xFF, 0x00, 0xAA, 0x90, 0xF5, 0x7E] : List Byte).map .line ++ [okResp])
    (fun t => t.rt == { armed := true, cnt := 3 } && t.cnt.retx == 1 && t.txSeq == 1) = true := by decide +kernel
/-- V-C-9 -/
theorem test_reserved : gives (.reserved 0xFF) State.reset [.resp .illegal []] (fun _ => true) = true := by
  decide +kernel
/-- V-I-5 -/
theorem test_iFrame : gives (.iFrame 0 2 false [0xAA]) upState [.deliverPkt [0xAA]]
    (fun t => t.rxNext == 1 && t.cnt.badNr == 1 && t.ackPend && t.dispPend) = true := by decide +kernel
/-- V-I-2 -/
theorem test_iFrame_outOfSequence : gives (.iFrame 1 0 false [0xAA]) upState
    (([0x7E, 0xFF, 0x09, 0xB9, 0x92, 0x7E] : List Byte).map .line)
    (fun t => t.cnt.rejSent == 1 && t.rxNext == 0) = true := by decide +kernel
/-- V-S-4 -/
theorem test_rr : gives (.rr 1 false []) { sentState with inFifo := [[0xBB]] }
    (([0x7E, 0xFF, 0x02, 0xBB, 0x28, 0xC7, 0x7E] : List Byte).map .line)
    (fun t => t.winAck == 1 && t.winTx == 2 && t.txSeq == 2) = true := by decide +kernel
/-- V-S-2 -/
theorem test_rr_badNr : gives (.rr 2 false []) sentState [] (fun t => t.cnt.badNr == 1 && t.winAck == 0) = true := by
  decide +kernel
/-- V-S-5 -/
theorem test_rnr : gives (.rnr 1 false []) sentState [] (fun t => t.winAck == 1 && t.rt == Timer.off) = true := by
  decide +kernel
/-- V-S-6, from the state after its SUBMITs -/
theorem test_rej : gives (.rej 1 false []) { upState with
      cfg := { Params.default with allowedInTransit := 3 }, winTx := 3, txSeq := 3, inFifo := [[0xA3]]
      winSlot := setSlot (setSlot (setSlot upState.winSlot 0 (some [0xA0])) 1 (some [0xA1])) 2 (some [0xA2]) }
    (([0x7E, 0xFF, 0x02, 0xA1, 0xF3, 0x78, 0x7E, 0x7E, 0xFF, 0x04, 0xA2, 0xB8, 0x1E, 0x7E,
       0x7E, 0xFF, 0x06, 0xA3, 0x81, 0x3C, 0x7E] : List Byte).map .line)
    (fun t => t.winAck == 1 && t.winTx == 4 && t.txSeq == 4 && t.cnt.retx == 2 && t.inFifo == []) = true := by
  decide +kernel
/-- V-S-8 -/
theorem test_srej : gives (.srej 0 false []) { upState with
      cfg := { Params.default with allowedInTransit := 2 }, winTx := 2, txSeq := 2
      winSlot := setSlot (setSlot upState.winSlot 0 (some [0xA0])) 1 (some [0xA1]) }
    (([0x7E, 0xFF, 0x00, 0xA0, 0xCA, 0x5A, 0x7E, 0x7E, 0xFF, 0x02, 0xA1, 0xF3, 0x78, 0x7E] : List Byte).map .line)
    (fun t => t.winAck == 0 && t.winTx == 2 && t.cnt.retx == 2) = true := by decide +kernel
/-- V-L-15 -/
theorem test_snrm : gives (.snrm false []) sentState
    (([0x7E, 0xFF, 0x63, 0xE5, 0x5E, 0x7E] : List Byte).map .line ++ [.linkUp])
    (fun t => t.winTx == 0 && t.rt == Timer.off && t.cnt.winDiscard == 1 && t.link == .up) = true := by
  decide +kernel
/-- V-L-3 -/
theorem test_ua : gives (.ua false []) connectingState [.linkUp]
    (fun t => t.link == .up && t.lt == Timer.off) = true := by decide +kernel
/-- V-L-10 -/
theorem test_dm : gives (.dm false []) upState [.linkDown .peerDm] (fun t => t.link == .down) = true := by
  decide +kernel
/-- V-L-12 -/
theorem test_dm_connecting : gives (.dm false []) connectingState []
    (fun t => t.link == .connecting && t.lt == { armed := true, cnt := 1000 }) = true := by decide +kernel
/-- V-L-13 -/
theorem test_disc_down : gives (.disc false []) State.reset
    (([0x7E, 0xFF, 0x63, 0xE5, 0x5E, 0x7E] : List Byte).map .line) (fun t => t.link == .down) = true := by
  decide +kernel
/-- V-L-14 -/
theorem test_disc : gives (.disc false []) upState
    (([0x7E, 0xFF, 0x63, 0xE5, 0x5E, 0x7E] : List Byte).map .line ++ [.linkDown .peerDisc])
    (fun t => t.link == .down) = true := by decide +kernel
/-- V-L-22 -/
theorem test_ui : gives (.ui false [0xAA]) State.reset [.deliverOob [0xAA]]
    (fun t => t.dispPend && t.link == .down) = true := by decide +kernel
/-- V-L-16 -/
theorem test_uUnknown : gives (.uUnknown 0x2F false []) upState
    (([0x7E, 0xFF, 0x0F, 0x8F, 0xF7, 0x7E] : List Byte).map .line ++ [.linkDown .unknownU])
    (fun t => t.link == .down) = true := by decide +kernel
/-- V-FR-31: the SNRM line under MSB_FIRST_1021 and MSB_FIRST -/
theorem test_frameLine_msb :
    frameLine { Params.default with crcVariant := .msbFirst1021, fcsOrder := .msbFirst } [0xFF, 0x83] =
      [0x7E, 0xFF, 0x83, 0xBF, 0x1B, 0x7E] := by decide +kernel

/-! ### Witnesses: concrete states and operands that meet the hypotheses of the statements -/

theorem witness_CommandsDecodeToThemselves :
    Instr.wf (.submit (List.replicate 255 0xAA)) = true ∧ Instr.isFrame (.submit (List.replicate 255 0xAA)) = false ∧
    Instr.wf (.reserved 0xFF) = true ∧ Instr.isFrame (.reserved 0xFF) = false := by decide +kernel

theorem witness_FramesDecodeToThemselves :
    Instr.wf (.uUnknown 0xEF true (List.replicate 255 0xAA)) = true ∧
    Instr.isFrame (.uUnknown 0xEF true (List.replicate 255 0xAA)) = true := by decide +kernel

theorem witness_DecodedCommandsReencode : decode [0x32, 0x00, 0x40] = .ok (.submit [], [0x40]) := rfl

theorem witness_DecodedFramesReencode : (List.replicate 255 (0xAA : Byte)).length ≤ 255 := by decide +kernel

theorem witness_CommandLengthFromOpcode :
    (0xFF : Byte) ∉ ([0x02, 0x11, 0x20, 0x21, 0x32] : List Byte) ∧
    (0x21 : Byte) ∈ ([0x02, 0x11, 0x20, 0x21] : List Byte) ∧
    (List.replicate 254 (0x00 : Byte)).length < (0xFF : Byte).toNat ∧
    (0xFF : Byte).toNat ≤ (List.replicate 255 (0x00 : Byte)).length := by decide +kernel

theorem witness_ControlByteClasses :
    (0xEE : Byte) &&& 0x01 = 0x00 ∧ (0xED : Byte) &&& 0x03 = 0x01 ∧ (0xEF : Byte) &&& 0x03 = 0x03 := by decide

theorem witness_StepRunsDecodedInstruction :
    decode { State.reset with input := [0x20, 0x7E, 0x40] }.input = .ok (.rxByte 0x7E, [0x40]) ∧
    State.reset.input = [] ∧ { State.reset with input := [0x20] }.input ≠ [] ∧
    decode { State.reset with input := [0x20] }.input = .error (.missingOperand 0x20) :=
  ⟨rfl, rfl, by decide, rfl⟩

theorem witness_FrameResidueIsZero : Params.default.crcVariant = .reflected8408 ∧ Params.default.crcXorout = 0 ∧
    Params.default.fcsOrder = .lsbFirst := by decide

theorem witness_SingleBitErrorsDetected :
    (frameBytes Params.default [0xFF, 0x83])[0]? = some 0xFF ∧
    (frameBytes Params.default [0xFF, 0x83])[3]? = some 0xB9 ∧ 7 < 8 := by decide +kernel

theorem witness_StuffResult : (0x7F : Byte) ≠ 0x7E ∧ (0x7F : Byte) ≠ 0x7D := by decide

theorem witness_IdleByteResult : State.reset.rxState = .idle ∧ State.reset.dispPend = false ∧
    (0x7F : Byte) ≠ 0x7E := by decide

theorem witness_InFrameByteResult_empty : (rxState []).rxState = .inFrame ∧ (rxState []).dispPend = false ∧
    (rxState []).rxLen = 0 ∧ (0x7F : Byte) ≠ 0x7D ∧ (0x7F : Byte) ≠ 0x7E ∧
    (rxState []).rxLen < (rxState []).cfg.maxFrame := by decide

theorem witness_InFrameByteResult_full :
    let s := { rxState [] with rxLen := 128 }
    s.rxState = .inFrame ∧ s.dispPend = false ∧ 0 < s.rxLen ∧ s.rxLen ≤ s.cfg.maxFrame ∧
      s.cfg.maxFrame ≤ s.rxLen := by decide

theorem witness_EscapedByteResult :
    let s := { rxState [] with rxState := .escaping, rxLen := 127 }
    let t := { s with rxLen := 128 }
    (s.rxState = .escaping ∧ s.dispPend = false ∧ s.rxLen < s.cfg.maxFrame) ∧
    (t.rxState = .escaping ∧ t.dispPend = false ∧ t.cfg.maxFrame ≤ t.rxLen) ∧ (0x7E : Byte) ≠ 0x7D := by decide

theorem witness_BusyWhileDispatching : pendingState.dispPend = true ∧
    Instr.tick ∈ [Instr.tick, Instr.connect, Instr.disconnect] ∧ Instr.isFrame .dispatchDone = false ∧
    Instr.dispatchDone ∉ [Instr.tick, Instr.connect, Instr.disconnect] ∧
    (nextState? (exec .dispatchDone pendingState)).isSome = true := by decide +kernel

theorem witness_DroppedFrames_overrun :
    let s := { rxState [] with rxLen := 128, rxOvr := true }
    s.rxState = .inFrame ∧ s.dispPend = false ∧ 0 < s.rxLen ∧ s.rxOvr = true := by decide

theorem witness_DroppedFrames_short :
    let s := rxState [0xFF, 0x83, 0xEB]
    s.rxState = .inFrame ∧ s.dispPend = false ∧ 0 < s.rxLen ∧ s.rxOvr = false ∧ s.rxLen < 4 := by decide +kernel

theorem witness_DroppedFrames_badFcs :
    let s := rxState [0xFF, 0x83, 0xEB, 0xB8]
    s.rxState = .inFrame ∧ s.dispPend = false ∧ 0 < s.rxLen ∧ s.rxOvr = false ∧ 4 ≤ s.rxLen ∧
      s.rxLen ≤ s.cfg.maxFrame ∧ bufferedFcs s ≠ s.crcRx.h2 ^^^ s.cfg.crcXorout := by decide +kernel

theorem witness_GoodFrameRunsItsClass :
    snrmStored.rxState = .inFrame ∧ snrmStored.dispPend = false ∧ snrmStored.rxOvr = false ∧
    4 ≤ snrmStored.rxLen ∧ snrmStored.rxLen ≤ snrmStored.cfg.maxFrame ∧
    bufferedFcs snrmStored = snrmStored.crcRx.h2 ^^^ snrmStored.cfg.crcXorout := by decide +kernel

theorem witness_StuffedBytesAreRecovered :
    State.reset.rxState = .idle ∧ State.reset.dispPend = false ∧
    ([] : List Byte).length ≤ State.reset.cfg.maxFrame ∧
    (List.replicate 128 (0x7E : Byte)).length ≤ State.reset.cfg.maxFrame := by decide +kernel

theorem witness_EmittedFrameIsReceived :
    Params.default.crcVariant = State.reset.cfg.crcVariant ∧ Params.default.crcXorout = State.reset.cfg.crcXorout ∧
    Params.default.fcsOrder = State.reset.cfg.fcsOrder ∧ State.reset.rxState = .idle ∧
    State.reset.dispPend = false ∧ (List.replicate 124 (0x7E : Byte)).length + 4 ≤ State.reset.cfg.maxFrame := by
  decide +kernel

theorem witness_ConnectResult : pendingState.dispPend = true ∧ (upState.dispPend = false ∧ upState.link = .up) ∧
    (connectingState.dispPend = false ∧ connectingState.link ≠ .up) := by decide

theorem witness_DisconnectResult : pendingState.dispPend = true ∧ (State.reset.dispPend = false ∧ State.reset.link = .down) ∧
    (sentState.dispPend = false ∧ sentState.link ≠ .down) := by decide

/-- The two cases of UaResult, DmResult, DiscResult and UnknownUResult. -/
theorem witness_linkCases : connectingState.link = .connecting ∧ upState.link ≠ .connecting ∧
    sentState.link = .up ∧ connectingState.link ≠ .up ∧ State.reset.link = .down ∧ upState.link ≠ .down := by decide

/-- By the instruction itself, and by the frame an RX_BYTE completes. -/
theorem witness_LinkChangesOnlyByTable :
    (nextState? (exec .connect State.reset)).map State.link = some .connecting ∧
    (nextState? (exec (.rxByte 0x7E) snrmStored)).map State.link = some .up := by decide +kernel

theorem witness_AckReleasesUpToNr :
    ((1 : U3) - wrapState.winAck).toNat ≤ (wrapState.winTx - wrapState.winAck).toNat ∧
    (wrapState.winTx - wrapState.winAck).toNat < ((2 : U3) - wrapState.winAck).toNat := by decide +kernel

/-- k = 0 with a full window, and k = 7. -/
theorem witness_DrainSendsOldestFirst :
    let s := { sentState with inFifo := [[0xBB]] }
    let t := { upState with
      cfg := { Params.default with allowedInTransit := 7 }, inFifo := List.replicate 8 [0xC0] }
    (s.cfg.InRange ∧ s.link = .up ∧ min s.inFifo.length (s.cfg.allowedInTransit - winCount s) = 0) ∧
    (t.cfg.InRange ∧ t.link = .up ∧ min t.inFifo.length (t.cfg.allowedInTransit - winCount t) = 7) ∧
    t.inFifo[7 - 1]? = some [0xC0] := by decide +kernel

theorem witness_ResendWindowResendsAll :
    ([] : List Packet).length = winCount upState ∧
    [[0xA1], [0xA2]].length = winCount wrapState ∧ [[0xA1], [0xA2]].getLast? = some ([0xA2] : Packet) ∧
    slotAt wrapState.winSlot (wrapState.winAck + BitVec.ofNat 3 0) = some [0xA1] ∧
    slotAt wrapState.winSlot (wrapState.winAck + BitVec.ofNat 3 1) = some [0xA2] := by decide +kernel

theorem witness_IFrameDropped : connectingState.link ≠ .up ∧ (upState.link = .up ∧ (7 : U3) ≠ upState.rxNext) := by
  decide

theorem witness_IFrameAccepted : wrapState.link = .up ∧ (ackUpTo 1 wrapState).isSome = true ∧
    ackUpTo 2 wrapState = none := by decide +kernel

theorem witness_SFrameIgnored :
    Instr.srej 2 false [] ∈ [Instr.rr 2 false [], Instr.rnr 2 false [], Instr.rej 2 false [], Instr.srej 2 false []] ∧
    connectingState.link ≠ .up ∧ wrapState.link = .up ∧
    (wrapState.winTx - wrapState.winAck).toNat < ((2 : U3) - wrapState.winAck).toNat := by decide +kernel

theorem witness_RrRnrResult : wrapState.link = .up ∧ (ackUpTo 7 wrapState).isSome = true := by decide +kernel

/-- GO_BACK_N with one packet left; TIMER_ONLY; an emptied window. -/
theorem witness_RejSrejResult :
    let s := { wrapState with cfg := { wrapState.cfg with rejPolicy := .timerOnly } }
    (wrapState.link = .up ∧ (ackUpTo 0 wrapState).map winCount = some 1 ∧ wrapState.cfg.rejPolicy = .goBackN) ∧
    (s.link = .up ∧ (ackUpTo 0 s).isSome = true ∧ s.cfg.rejPolicy = .timerOnly) ∧
    (ackUpTo 1 wrapState).map winCount = some 0 := by decide +kernel

theorem witness_SubmitResult :
    let full := { upState with inFifo := List.replicate 8 [0x01] }
    (List.replicate 255 (0x55 : Byte)).length ≤ 255 ∧
    State.reset.cfg.maxFrame - 4 < (List.replicate 125 (0x55 : Byte)).length ∧
    ((List.replicate 124 (0x55 : Byte)).length ≤ full.cfg.maxFrame - 4 ∧
      full.inFifo.length = full.cfg.inFifoDepth) ∧
    ([] : Packet).length ≤ upState.cfg.maxFrame - 4 ∧ upState.inFifo.length ≠ upState.cfg.inFifoDepth := by
  decide +kernel

theorem witness_DispatchDoneResult : upState.dispPend = false ∧
    (pendingState.dispPend = true ∧ pendingState.ackPend = true ∧ pendingState.link = .up) ∧
    ({ pendingState with link := .down }.dispPend = true ∧ { pendingState with link := .down }.link ≠ .up) := by
  decide

/-- An I-frame from 7 to 0, and a reset. -/
theorem witness_RxNextAdvancesByOne :
    (nextState? (exec (.iFrame 7 0 false []) { upState with rxNext := 7 })).map State.rxNext = some 0 ∧
    (nextState? (exec .softReset { upState with rxNext := 3 })).map State.rxNext = some 0 ∧
    { upState with rxNext := 7 }.rxNext ≠ 0 := by decide +kernel

theorem witness_TickCountsDown :
    let a := { connectingState with cfg := { Params.default with timerPresent := false } }
    let b := { sentState with lt := { armed := true, cnt := 2 }, rt := { armed := true, cnt := 0xFFFF } }
    (a.dispPend = false ∧ a.cfg.timerPresent = false) ∧
    (b.dispPend = false ∧ b.cfg.timerPresent = true ∧ b.lt.armed = true ∧ b.lt.cnt ≠ 1 ∧ b.rt.armed = true ∧
      b.rt.cnt ≠ 1) := by decide

theorem witness_LinkTimerExpiry :
    let a := { connectingState with lt := { armed := true, cnt := 1 } }
    let b := { a with link := .down }
    (a.dispPend = false ∧ a.cfg.timerPresent = true ∧ a.lt = { armed := true, cnt := 1 } ∧ a.rt.armed = false ∧
      a.link = .connecting) ∧
    (b.dispPend = false ∧ b.cfg.timerPresent = true ∧ b.lt = { armed := true, cnt := 1 } ∧ b.rt.armed = false ∧
      b.link ≠ .connecting) := by decide

theorem witness_RetransmitTimerExpiry :
    let a := { wrapState with rt := { armed := true, cnt := 1 } }
    let b := { upState with rt := { armed := true, cnt := 1 } }
    let c := { a with link := .down }
    (a.dispPend = false ∧ a.cfg.timerPresent = true ∧ a.rt = { armed := true, cnt := 1 } ∧ a.lt.armed = false ∧
      a.link = .up ∧ 0 < winCount a ∧ slotAt a.winSlot a.winAck = some [0xA1]) ∧
    (b.dispPend = false ∧ b.cfg.timerPresent = true ∧ b.rt = { armed := true, cnt := 1 } ∧ b.lt.armed = false ∧
      winCount b = 0) ∧
    (c.rt = { armed := true, cnt := 1 } ∧ c.lt.armed = false ∧ c.link ≠ .up) := by decide +kernel

theorem witness_TimersExpireOnNthTick :
    let a := { connectingState with lt := { armed := true, cnt := 0xFFFF } }
    let b := { wrapState with rt := { armed := true, cnt := 1 } }
    (a.dispPend = false ∧ a.cfg.timerPresent = true ∧ (0xFFFF : U16) ≠ 0 ∧ a.lt = { armed := true, cnt := 0xFFFF } ∧
      a.rt.armed = false ∧ a.link = .connecting) ∧
    (b.dispPend = false ∧ b.cfg.timerPresent = true ∧ (1 : U16) ≠ 0 ∧ b.rt = { armed := true, cnt := 1 } ∧
      b.lt.armed = false ∧ b.link = .up ∧ 0 < winCount b ∧ slotAt b.winSlot b.winAck = some [0xA1]) := by
  decide +kernel

theorem witness_NopAndReservedResult :
    (0x03 : Byte) ≤ 0x0F ∧ (0x14 : Byte) ≤ 0x1F ∧ (0x22 : Byte) ≤ 0x2F ∧ (0x34 : Byte) ≤ 0x3F ∧
    (0x41 : Byte) ≤ 0xFF := by decide

theorem witness_ReadRegResult :
    let s := { sentState with rxLen := 128, inFifo := List.replicate 8 [0xBB] }
    s.cfg.InRange ∧ s.rxLen ≤ s.cfg.maxFrame ∧ s.inFifo.length ≤ s.cfg.inFifoDepth ∧
    ((0x06, 1) : Byte × Nat) ∈ registerTable s ∧ ((0x09, 128) : Byte × Nat) ∈ registerTable s ∧
    (0x0D : Byte) ≤ 0x0F ∧ (0x38 : Byte) ≤ 0xFF := by decide +kernel

theorem witness_SoftResetResult : (0x0C : Byte) ≤ 0x0C ∧ (0x10 : Byte) ≤ 0x17 := by decide

/-- A status other than OK, OK, and a frame class. -/
theorem witness_StatusOfEveryCommand :
    statusOf pendingState .tick = some .busy ∧ (nextState? (exec .tick pendingState)).isSome = true ∧
    statusOf pendingState .dispatchDone = some .ok ∧ (nextState? (exec .dispatchDone pendingState)).isSome = true ∧
    statusOf upState (.snrm false []) = none ∧ (nextState? (exec (.snrm false []) upState)).isSome = true := by
  decide +kernel

/-- The ends of every range of 00_scope.md R7. -/
theorem witness_ResetSatisfiesInvariant :
    { Params.default with
      maxFrame := 4, inFifoDepth := 1, allowedInTransit := 1, tLink := 1, tRetx := 1 }.InRange ∧
    { Params.default with
      maxFrame := 259, inFifoDepth := 255, allowedInTransit := 7, tLink := 0xFFFF, tRetx := 0xFFFF }.InRange := by
  decide

/-- Up, a full window, a packet waiting, a frame accepted and not acknowledged, a frame half received, and a
SUBMIT at the command port. -/
def busyState : State := { sentState with
  inFifo := [[0xBB]], dispPend := true, ackPend := true, rxNext := 1
  rxState := .inFrame, rxLen := 2, rxBuf := [(0, 0xFF), (1, 0x83)]
  crcRx := crcFold .reflected8408 crcResetX [0xFF, 0x83], input := [0x32, 0x01, 0xCC, 0x33] }

theorem busyState_inv : busyState.Inv where
  params := by decide
  rx := { canonical := by decide
          addresses := by decide
          length := by decide
          written := by decide +kernel
          crc := by decide +kernel
          overrun := by decide }
  window := { txSeq := by decide
              count := by decide
              slots := by decide +kernel
              slotLength := by decide +kernel
              fifo := by decide
              fifoLength := by decide }
  timers := { lt := by decide, rt := by decide, ltCount := by decide, rtCount := by decide }
  handshake := by decide
  drained := fun _ _ => by decide

theorem witness_StepKeepsInvariant : busyState.Inv ∧ (nextState? (step busyState)).isSome = true :=
  ⟨busyState_inv, by decide +kernel⟩

theorem witness_WholeCommandsAlwaysComplete :
    busyState.Inv ∧ decode busyState.input = .ok (.submit [0xCC], [0x33]) := ⟨busyState_inv, rfl⟩

theorem witness_UnreadBufferBytesInvisible :
    SameObserved busyState { busyState with rxBuf := [(0, 0xFF), (1, 0x83), (127, 0xAA)] } :=
  ⟨rfl, by decide +kernel⟩

/-- A stored byte, and an update of CRC_H. -/
theorem witness_WritersOfEachElement :
    (nextState? (exec (.rxByte 0xAA) (rxState [0xFF]))).map (fun t => Memory.read t.rxBuf 1) = some (some 0xAA) ∧
    Memory.read (rxState [0xFF]).rxBuf 1 = none ∧
    (nextState? (exec (.crcUpdate 0x00) State.reset)).map (fun t => t.crcH.val) = some 0x0F87 := by decide +kernel

end Sys2Proof.Tests
end

/-!
SUPPORT. READ_REG (46_control.md R282): the register map (10_state.md R34, R35) as the model computes it is the
table of the statement. Each computed register is the number its bits spell, a table entry fixes the register's
value, and the numbers outside the table have none.
-/

namespace Sys2Proof.Machine

/-! ### Results and register fields -/

/-- A 16-bit result depends on a number's two low bytes alone, so no bound on the number is needed. -/
theorem lowFirst_ofNat (v : Nat) :
    lowFirst (BitVec.ofNat 16 v) = [BitVec.ofNat 8 v, BitVec.ofNat 8 (v / 256)] := by
  have low : (BitVec.ofNat 16 v).setWidth 8 = BitVec.ofNat 8 v := by
    apply BitVec.eq_of_toNat_eq
    simp only [BitVec.toNat_setWidth, BitVec.toNat_ofNat]
    omega
  have high : (BitVec.ofNat 16 v >>> 8).setWidth 8 = BitVec.ofNat 8 (v / 256) := by
    apply BitVec.eq_of_toNat_eq
    simp only [BitVec.toNat_setWidth, BitVec.toNat_ushiftRight, BitVec.toNat_ofNat, Nat.shiftRight_eq_div_pow]
    omega
  rw [lowFirst, low, high]

/-- A number that fits its field is shown whole. -/
theorem regField_of_lt {bits n : Nat} (h : n < 2 ^ bits) : regField bits n = BitVec.ofNat 16 n := by
  rw [regField, Nat.mod_eq_of_lt h]

/-- The window's count is a difference modulo 8, so it always fits its three bits. -/
theorem regField_winCount (s : State) : regField 3 (winCount s) = (s.winTx - s.winAck).setWidth 16 :=
  (regField_of_lt (s.winTx - s.winAck).isLt).trans (BitVec.ofNat_toNat 16 _)

/-- Bit i, where set, weighs 2 ^ i. -/
theorem packBits_ofFn {n : Nat} (f : Fin n → Bool) :
    packBits (List.ofFn f) = ((List.finRange n).map fun i => if f i then 2 ^ i.val else 0).sum := by
  induction n with
  | zero => rfl
  | succ n ih =>
    have tail : 2 * packBits (List.ofFn fun i : Fin n => f i.succ) =
        ((List.finRange n).map fun i => if f i.succ then 2 ^ (i.val + 1) else 0).sum := by
      rw [ih, ← List.sum_map_mul_left]
      simp only [mul_ite, mul_zero, pow_succ']
    rw [List.ofFn_succ, packBits, tail, List.finRange_succ]
    cases h : f 0 <;> simp [h, Function.comp_def]

theorem winOccReg_eq (s : State) :
    winOccReg s = BitVec.ofNat 16
      ((List.finRange 8).map fun i => if (s.winSlot[i]).isSome then 2 ^ i.val else 0).sum := by
  have slots : s.winSlot.toList.map Option.isSome = List.ofFn fun i : Fin 8 => (s.winSlot[i]).isSome := by
    refine List.ext_getElem (by simp) fun i _ _ => ?_
    simp only [List.getElem_map, Vector.getElem_toList, List.getElem_ofFn, Fin.getElem_fin]
  rw [winOccReg, slots, packBits_ofFn]

theorem flagsReg_eq (s : State) :
    flagsReg s = BitVec.ofNat 16 (s.rxOvr.toNat + 2 * s.dispPend.toNat + 4 * s.ackPend.toNat +
      8 * s.lt.armed.toNat + 16 * s.rt.armed.toNat) := by
  unfold flagsReg
  congr 1
  simp only [packBits]
  ring

theorem cfgModesReg_eq (p : Params) :
    cfgModesReg p = BitVec.ofNat 16 (p.timerPresent.toNat + 2 * (p.crcVariant == .msbFirst1021).toNat +
      4 * (p.fcsOrder == .msbFirst).toNat + 8 * (p.rejPolicy == .timerOnly).toNat) := by
  unfold cfgModesReg
  congr 1
  simp only [packBits]
  ring

theorem linkCode_eq (l : Link) :
    linkCode l = BitVec.ofNat 16 (match l with | .down => 0 | .connecting => 1 | .up => 2) := by
  cases l <;> rfl

theorem rxStateCode_eq (x : RxState) :
    rxStateCode x = BitVec.ofNat 16 (match x with | .idle => 0 | .inFrame => 1 | .escaping => 2) := by
  cases x <;> rfl

/-! ### The register map -/

/-- One line per register, in the table's order. A register that is a word is that word by computation; the counts
that are not words need their bound, for a register shows its listed bits alone (log entry 12). -/
theorem regValue_of_mem_registerTable {s : State} (hcfg : s.cfg.InRange) (hlen : s.rxLen ≤ s.cfg.maxFrame)
    (hfifo : s.inFifo.length ≤ s.cfg.inFifoDepth) :
    ∀ e ∈ registerTable s, regValue s e.1 = some (BitVec.ofNat 16 e.2) := by
  obtain ⟨⟨-, hframe⟩, ⟨-, hdepth⟩, ⟨-, htransit⟩, -, -⟩ := hcfg
  unfold registerTable
  rw [List.forall_mem_append, List.forall_mem_append]
  simp only [List.forall_mem_cons, BitVec.ofNat_toNat, BitVec.setWidth_eq]
  refine ⟨⟨?state, ?counters⟩, ?parameters⟩
  case state =>
    exact ⟨congrArg some (linkCode_eq s.link),
      rfl, rfl, rfl, rfl,
      congrArg some (regField_winCount s),
      congrArg some (winOccReg_eq s),
      congrArg some (regField_of_lt (by omega)),
      congrArg some (rxStateCode_eq s.rxState),
      congrArg some (regField_of_lt (by omega)),
      congrArg some (flagsReg_eq s),
      rfl, rfl, List.forall_mem_nil _⟩
  case counters => exact ⟨rfl, rfl, rfl, rfl, rfl, rfl, rfl, rfl, List.forall_mem_nil _⟩
  case parameters =>
    exact ⟨rfl,
      congrArg some (regField_of_lt (by omega)),
      congrArg some (regField_of_lt (by omega)),
      congrArg some (regField_of_lt (by omega)),
      rfl, rfl,
      congrArg some (cfgModesReg_eq s.cfg),
      rfl, List.forall_mem_nil _⟩

/-- The register numbers that R282 answers with ILLEGAL. -/
theorem regValue_of_unmapped (s : State) {b : Byte}
    (h : (0x0D ≤ b ∧ b ≤ 0x0F) ∨ (0x18 ≤ b ∧ b ≤ 0x2F) ∨ 0x38 ≤ b) : regValue s b = none := by
  unfold regValue
  split
  case h_30 => rfl
  all_goals exact absurd h (by decide)

/-- The table's numbers do not depend on the state, so this is a fact about the 256 bytes. -/
theorem registerTable_covers (s : State) (b : Byte) :
    b ∈ (registerTable s).map Prod.fst ∨ (0x0D ≤ b ∧ b ≤ 0x0F) ∨ (0x18 ≤ b ∧ b ≤ 0x2F) ∨ 0x38 ≤ b := by
  have numbers : (registerTable s).map Prod.fst =
      [0x00, 0x01, 0x02, 0x03, 0x04, 0x05, 0x06, 0x07, 0x08, 0x09, 0x0A, 0x0B, 0x0C,
       0x10, 0x11, 0x12, 0x13, 0x14, 0x15, 0x16, 0x17,
       0x30, 0x31, 0x32, 0x33, 0x34, 0x35, 0x36, 0x37] := rfl
  rw [numbers]
  simp only [List.mem_cons, List.not_mem_nil, or_false]
  bv_omega

/-! ### The command -/

theorem exec_readReg_of_some {s : State} {b : Byte} {v : U16} (h : regValue s b = some v) :
    exec (.readReg b) s = .next { s with out := s.out ++ [.resp .ok (lowFirst v)] } := by
  rw [exec, execReadReg, h]
  rfl

theorem exec_readReg_of_none {s : State} {b : Byte} (h : regValue s b = none) :
    exec (.readReg b) s = .next { s with out := s.out ++ [.resp .illegal []] } := by
  rw [exec, execReadReg, h]
  rfl

/-- Settles O51: a table entry fixes the register's value, every other number has none, and the two cases cover
the bytes. -/
theorem readRegResult : Obligations.ReadRegResult := by
  unfold Obligations.ReadRegResult
  refine ⟨fun _ _ => rfl, fun s hcfg hlen hfifo => ⟨?mapped, ?unmapped, registerTable_covers s⟩⟩
  case mapped =>
    intro b v hmem
    have value := regValue_of_mem_registerTable hcfg hlen hfifo (b, v) hmem
    rw [exec_readReg_of_some value, lowFirst_ofNat]
  case unmapped =>
    intro b h
    exact exec_readReg_of_none (regValue_of_unmapped s h)

end Sys2Proof.Machine

/-!
SUPPORT. The decoder (30_encoding.md section 1, R88, R97): how many bytes of the command stream each opcode takes,
and which frame class the low two bits of a control byte choose.
-/

namespace Sys2Proof

/-! ### Command lengths -/

/-- An opcode of neither format C1 nor format CV takes its own byte alone. -/
theorem decode_of_no_operand {op : Byte} (h : op ∉ ([0x02, 0x11, 0x20, 0x21, 0x32] : List Byte))
    (rest : List Byte) : ∃ i, decode (op :: rest) = .ok (i, rest) := by
  simp only [decode]
  split
  -- the arms of the five opcodes with operands, which h excludes
  case h_3 | h_5 | h_8 | h_9 | h_12 => exact absurd h (by decide)
  all_goals exact ⟨_, rfl⟩

/-- The opcodes of format C1 (R81, R82), each with its command. -/
theorem decode_of_mem_c1 {op : Byte} (h : op ∈ ([0x02, 0x11, 0x20, 0x21] : List Byte)) :
    ∃ mk : Byte → Instr, ∀ rest, decode (op :: rest) = decodeC1 op mk rest := by
  simp only [List.mem_cons, List.not_mem_nil, or_false] at h
  obtain rfl | rfl | rfl | rfl := h
  · exact ⟨.readReg, fun _ => rfl⟩
  · exact ⟨.crcUpdate, fun _ => rfl⟩
  · exact ⟨.rxByte, fun _ => rfl⟩
  · exact ⟨.stuff, fun _ => rfl⟩

theorem decode_submit_of_short {len : Byte} {rest : List Byte} (h : rest.length < len.toNat) :
    decode (0x32 :: len :: rest) = .error (.missingPayload len.toNat rest.length) :=
  if_pos h

theorem decode_submit_of_whole {len : Byte} {rest : List Byte} (h : len.toNat ≤ rest.length) :
    decode (0x32 :: len :: rest) = .ok (.submit (rest.take len.toNat), rest.drop len.toNat) :=
  if_neg h.not_gt

/-- Settles O6: by the opcode's format (R81), no operand, C1 or CV. -/
theorem commandLengthFromOpcode : Obligations.CommandLengthFromOpcode := by
  unfold Obligations.CommandLengthFromOpcode
  refine ⟨fun _ rest h => decode_of_no_operand h rest, ?c1, rfl,
    fun _ _ => ⟨decode_submit_of_short, decode_submit_of_whole⟩⟩
  case c1 =>
    intro op h
    obtain ⟨mk, hmk⟩ := decode_of_mem_c1 h
    exact ⟨hmk [], fun b rest => ⟨mk b, hmk (b :: rest)⟩⟩

/-! ### Frame classes -/

theorem and_one_eq_bit_zero (c : Byte) : c &&& 0x01 = if c.getLsbD 0 then 0x01 else 0x00 :=
  BitVec.and_twoPow c 0

/-- The mask 0x03 keeps bits 1 and 0, so the class of a control byte is a matter of these two bits. -/
theorem and_three_eq_low_bits (c : Byte) :
    c &&& 0x03 = (if c.getLsbD 0 then 0x01 else 0x00) ||| (if c.getLsbD 1 then 0x02 else 0x00) := by
  have mask : (0x03 : Byte) = BitVec.twoPow 8 0 ||| BitVec.twoPow 8 1 := rfl
  rw [mask, BitVec.and_or_distrib_left, BitVec.and_twoPow, BitVec.and_twoPow]
  rfl

theorem isICtrl_eq (c : Byte) : isICtrl c = (c &&& 0x01 == 0x00) := by
  rw [isICtrl, and_one_eq_bit_zero]
  cases c.getLsbD 0 <;> decide

theorem isSCtrl_eq (c : Byte) : isSCtrl c = (c &&& 0x03 == 0x01) := by
  rw [isSCtrl, and_three_eq_low_bits]
  cases c.getLsbD 0 <;> cases c.getLsbD 1 <;> decide

theorem isUCtrl_eq (c : Byte) : isUCtrl c = (c &&& 0x03 == 0x03) := by
  rw [isUCtrl, and_three_eq_low_bits]
  cases c.getLsbD 0 <;> cases c.getLsbD 1 <;> decide

/-- R88: the three classes are disjoint and leave no control byte out. -/
theorem exactly_one_ctrl_class (c : Byte) :
    ([isICtrl c, isSCtrl c, isUCtrl c].filter id).length = 1 := by
  simp only [isICtrl, isSCtrl, isUCtrl]
  cases c.getLsbD 0 <;> cases c.getLsbD 1 <;> rfl

theorem decodeFrame_of_isICtrl {c : Byte} (h : isICtrl c = true) (info : Packet) :
    decodeFrame c info = .iFrame (ctrlNs c) (ctrlNr c) (ctrlPf c) info := if_pos h

theorem decodeFrame_of_isSCtrl {c : Byte} (h : isSCtrl c = true) (info : Packet) :
    decodeFrame c info ∈
      [Instr.rr (ctrlNr c) (ctrlPf c) info, Instr.rnr (ctrlNr c) (ctrlPf c) info,
       Instr.rej (ctrlNr c) (ctrlPf c) info, Instr.srej (ctrlNr c) (ctrlPf c) info] := by
  have notI : isICtrl c = false := congrArg not (Bool.and_eq_true_iff.1 h).1
  simp only [decodeFrame, notI, h, Bool.false_eq_true, if_true, if_false]
  split_ifs <;> simp

theorem decodeFrame_of_isUCtrl {c : Byte} (h : isUCtrl c = true) (info : Packet) :
    decodeFrame c info ∈
      [Instr.snrm (ctrlPf c) info, Instr.ua (ctrlPf c) info, Instr.dm (ctrlPf c) info,
       Instr.disc (ctrlPf c) info, Instr.ui (ctrlPf c) info,
       Instr.uUnknown (ctrlUCode c) (ctrlPf c) info] := by
  obtain ⟨bit0, bit1⟩ := Bool.and_eq_true_iff.1 h
  have notI : isICtrl c = false := congrArg not bit0
  have notS : isSCtrl c = false := by simp [isSCtrl, bit1]
  simp only [decodeFrame, notI, notS, Bool.false_eq_true, if_false]
  split_ifs <;> simp

/-- Settles O7: the masks of the statement are the decoder's class tests, and the decoder follows these. -/
theorem controlByteClasses : Obligations.ControlByteClasses := by
  unfold Obligations.ControlByteClasses
  intro c info
  refine ⟨fun h => ⟨_, _, _, decodeFrame_of_isICtrl ((isICtrl_eq c).trans (beq_iff_eq.2 h)) info⟩,
    fun h => ⟨_, _, decodeFrame_of_isSCtrl ((isSCtrl_eq c).trans (beq_iff_eq.2 h)) info⟩,
    fun h => ⟨_, _, decodeFrame_of_isUCtrl ((isUCtrl_eq c).trans (beq_iff_eq.2 h)) info⟩, ?exactlyOne⟩
  case exactlyOne =>
    rw [← isICtrl_eq, ← isSCtrl_eq, ← isUCtrl_eq]
    exact exactly_one_ctrl_class c

end Sys2Proof

/-!
SUPPORT. The CRC history (40_crc.md R124): H2 holds the VAL from before the last two updates.
-/

namespace Sys2Proof.Machine

/-- R124: each update moves VAL to H1 and H1 to H2, so after two more bytes H2 is the VAL from before both of them. -/
theorem crcFold_append_pair_h2 (v : CrcVariant) (x : Crc) (bs : List Byte) (b1 b2 : Byte) :
    (crcFold v x (bs ++ [b1, b2])).h2 = (crcFold v x bs).val := by
  rw [crcFold_append]
  rfl

/-- Settles O12: the update's equation is R124's; VAL follows by `crcFold_val`, and H2 is the VAL of two updates ago. -/
theorem crcHistoryHoldsEarlierValues : Obligations.CrcHistoryHoldsEarlierValues := by
  unfold Obligations.CrcHistoryHoldsEarlierValues
  refine fun v => ⟨fun _ _ => rfl, fun bs b1 b2 => ⟨?val, ?h2⟩, fun _ => rfl⟩
  case val => exact crcFold_val v crcResetX (bs ++ [b1, b2])
  case h2 => exact (crcFold_append_pair_h2 v crcResetX bs b1 b2).trans (crcFold_val v crcResetX bs)

end Sys2Proof.Machine

/-!
SUPPORT. The frame codec's commands (41_frame_codec.md R140 to R148): what the receive state machine answers to one
line byte, an equation per state and kind of byte, and what RX_BYTE makes of each.
-/

namespace Sys2Proof.Machine

/-! ### STUFF -/

theorem stuffByte_flag : stuffByte flagByte = [0x7D, 0x5E] := rfl

theorem stuffByte_esc : stuffByte escByte = [0x7D, 0x5D] := rfl

/-- Settles O16: the three cases of R140, and STUFF's one response. -/
theorem stuffResult : Obligations.StuffResult := by
  unfold Obligations.StuffResult
  exact ⟨fun _ => stuffByte_plain, stuffByte_flag, stuffByte_esc, fun _ _ => rfl, fun _ _ => rfl⟩

/-! ### One line byte, by the state of the codec -/

section
variable {b : Byte} {s : State}

theorem rxAccept_idle (hs : s.rxState = .idle) : rxAccept b s = .ok (rxIdle b s) := by
  simp only [rxAccept, hs]

theorem rxAccept_inFrame (hs : s.rxState = .inFrame) : rxAccept b s = rxInFrame b s := by
  simp only [rxAccept, hs]

theorem rxAccept_escaping (hs : s.rxState = .escaping) : rxAccept b s = .ok (rxEscaping b s) := by
  simp only [rxAccept, hs]

theorem rxIdle_flag (s : State) : rxIdle flagByte s = { rxOpen s with rxState := .inFrame } := if_pos rfl

theorem rxIdle_dropped (hf : b ≠ flagByte) : rxIdle b s = s := if_neg hf

theorem rxInFrame_esc (s : State) : rxInFrame escByte s = .ok { s with rxState := .escaping } := if_pos rfl

/-- The flag closes a frame that holds bytes and reopens one that holds none. -/
theorem rxInFrame_flag (s : State) : rxInFrame flagByte s =
    if 0 < s.rxLen then frameComplete { s with rxState := .idle } else .ok (rxOpen s) := by
  have flag_ne_esc : flagByte ≠ escByte := by decide
  rw [rxInFrame, if_neg flag_ne_esc, if_pos rfl]

theorem rxInFrame_data (he : b ≠ escByte) (hf : b ≠ flagByte) : rxInFrame b s = .ok (rxStore b s) := by
  rw [rxInFrame, if_neg he, if_neg hf]

theorem rxEscaping_esc (s : State) : rxEscaping escByte s = s := if_pos rfl

/-- A flag too is data here: only the escape is not. -/
theorem rxEscaping_data (he : b ≠ escByte) :
    rxEscaping b s = { rxStore (b ^^^ escMask) s with rxState := .inFrame } := if_neg he

/-! ### RX_BYTE -/

theorem exec_rxByte_ok {t : State} (hd : s.dispPend = false) (h : rxAccept b s = .ok t) :
    exec (.rxByte b) s = .next { t with out := t.out ++ [.resp .ok []] } := execRxByte_ok hd h

theorem exec_rxByte_idle {t : State} (hs : s.rxState = .idle) (hd : s.dispPend = false) (h : rxIdle b s = t) :
    exec (.rxByte b) s = .next { t with out := t.out ++ [.resp .ok []] } :=
  exec_rxByte_ok hd ((rxAccept_idle hs).trans (congrArg _ h))

theorem exec_rxByte_inFrame {t : State} (hs : s.rxState = .inFrame) (hd : s.dispPend = false)
    (h : rxInFrame b s = .ok t) :
    exec (.rxByte b) s = .next { t with out := t.out ++ [.resp .ok []] } :=
  exec_rxByte_ok hd ((rxAccept_inFrame hs).trans h)

theorem exec_rxByte_escaping {t : State} (hs : s.rxState = .escaping) (hd : s.dispPend = false)
    (h : rxEscaping b s = t) :
    exec (.rxByte b) s = .next { t with out := t.out ++ [.resp .ok []] } :=
  exec_rxByte_ok hd ((rxAccept_escaping hs).trans (congrArg _ h))

end

/-- Settles O17: `rxIdle` on the flag and on any other byte. -/
theorem idleByteResult : Obligations.IdleByteResult := by
  unfold Obligations.IdleByteResult
  refine fun s hs hd => ⟨?flag, fun b hb => ?dropped⟩
  case flag => exact exec_rxByte_idle hs hd (rxIdle_flag s)
  case dropped => exact exec_rxByte_idle hs hd (rxIdle_dropped hb)

/-- Settles O18: `rxInFrame` on the escape, on the flag by RX_LEN, and on a data byte by the room in RX_BUF. A flag
completes because RX_LEN is in range (log entry 7). -/
theorem inFrameByteResult : Obligations.InFrameByteResult := by
  unfold Obligations.InFrameByteResult
  refine fun s hs hd => ⟨?esc, fun hempty => ?reopen, fun hfilled hlen => ?close,
    fun b he hf => ⟨fun hroom => ?stored, fun hfull => ?overrun⟩⟩
  case esc => exact exec_rxByte_inFrame hs hd (rxInFrame_esc s)
  case reopen =>
    exact exec_rxByte_inFrame hs hd ((rxInFrame_flag s).trans (if_neg hempty.not_gt))
  case close =>
    obtain ⟨t, ht⟩ := frameComplete_ok (s := { s with rxState := .idle }) hlen
    exact ⟨t, ht, exec_rxByte_inFrame hs hd ((rxInFrame_flag s).trans ((if_pos hfilled).trans ht))⟩
  case stored =>
    have accepted := rxInFrame_data (s := s) he hf
    rw [rxStore_room b hroom] at accepted
    exact ⟨_, exec_rxByte_inFrame hs hd accepted, Memory.read_write s.rxBuf s.rxLen b⟩
  case overrun =>
    have accepted := rxInFrame_data (s := s) he hf
    rw [rxStore_full b hfull] at accepted
    exact exec_rxByte_inFrame hs hd accepted

/-- Settles O19: `rxEscaping` on the escape, and on any other byte by the room in RX_BUF. -/
theorem escapedByteResult : Obligations.EscapedByteResult := by
  unfold Obligations.EscapedByteResult
  refine fun s hs hd => ⟨?esc, fun b he => ⟨fun hroom => ?stored, fun hfull => ?overrun⟩⟩
  case esc => exact exec_rxByte_escaping hs hd (rxEscaping_esc s)
  case stored =>
    have accepted := rxEscaping_data (s := s) he
    rw [rxStore_room (b ^^^ escMask) hroom] at accepted
    exact ⟨_, exec_rxByte_escaping hs hd accepted, Memory.read_write s.rxBuf s.rxLen (b ^^^ escMask)⟩
  case overrun =>
    have accepted := rxEscaping_data (s := s) he
    rw [rxStore_full (b ^^^ escMask) hfull] at accepted
    exact exec_rxByte_escaping hs hd accepted

end Sys2Proof.Machine

/-!
SUPPORT. The frame parser (42_frame_parser.md R170 to R174): the closing flag of a frame that holds bytes, and the
three ways such a frame is dropped.
-/

namespace Sys2Proof.Machine

section
variable {s t : State}

/-- The flag's answer on a frame that holds bytes is frame_complete's, run with RX_STATE already Idle (R145). -/
theorem exec_rxByte_closingFlag (hs : s.rxState = .inFrame) (hd : s.dispPend = false) (hfilled : 0 < s.rxLen)
    (h : frameComplete { s with rxState := .idle } = .ok t) :
    exec (.rxByte flagByte) s = .next { t with out := t.out ++ [.resp .ok []] } :=
  exec_rxByte_inFrame hs hd ((rxInFrame_flag s).trans ((if_pos hfilled).trans h))

/-- R174 by the FCS as it stands in RX_BUF. -/
theorem frameComplete_bufferedFcs_ne (hovr : s.rxOvr = false) (hlong : 4 ≤ s.rxLen)
    (hroom : s.rxLen ≤ s.cfg.maxFrame) (hfcs : bufferedFcs s ≠ s.crcRx.h2 ^^^ s.cfg.crcXorout) :
    frameComplete s = .ok (count .crcErr s) :=
  frameComplete_badFcs hovr hlong hroom (fcsReceived_rxBytes hlong ▸ hfcs)

end

/-- Settles O21: frame_complete's three drops, reached by the closing flag. The checks read no RX_STATE, so what
holds of s holds of the state they run in. -/
theorem droppedFrames : Obligations.DroppedFrames := by
  unfold Obligations.DroppedFrames
  refine fun s hs hd hfilled => ⟨fun hovr => ?overrun, fun hovr hshort => ?short,
    fun hovr hlong hroom hfcs => ?badFcs⟩
  case overrun =>
    exact exec_rxByte_closingFlag hs hd hfilled (frameComplete_overrun (s := { s with rxState := .idle }) hovr)
  case short =>
    exact exec_rxByte_closingFlag hs hd hfilled (frameComplete_short (s := { s with rxState := .idle }) hovr hshort)
  case badFcs =>
    exact exec_rxByte_closingFlag hs hd hfilled
      (frameComplete_bufferedFcs_ne (s := { s with rxState := .idle }) hovr hlong hroom hfcs)

end Sys2Proof.Machine

/-!
SUPPORT. The link engine (43_link_engine.md R190 to R202): send_U, go_up and go_down as whole next states, then what
CONNECT, DISCONNECT and each received U-frame make of them.
-/

namespace Sys2Proof.Machine

/-! ### Sending a U-frame and changing LINK -/

theorem sendU_eq (code : Byte) (s : State) :
    sendU code s = { s with crcTx := frameCrc s.cfg code [], out := s.out ++ frameOut s.cfg code [] } :=
  emitFrame_eq code [] s

/-- R192. -/
theorem goUp_eq (s : State) :
    goUp s = drain { s with link := .up, lt := { armed := false, cnt := 0 }, out := s.out ++ [.linkUp] } := rfl

/-- R191: the sequence reset reads neither LINK nor LT, so it may be taken in the state before. -/
theorem goDown_eq (r : LinkDownReason) (s : State) :
    goDown r s = { seqCleared s with
      link := .down, lt := { armed := false, cnt := 0 }, out := s.out ++ [.linkDown r] } := by
  rw [goDown, seqReset_eq]
  rfl

/-- A U-frame and then go_down, as R194, R199 and R201 have it: what is sent does not touch what the reset clears. -/
theorem goDown_sendU (r : LinkDownReason) (code : Byte) (s : State) :
    goDown r (sendU code s) = { seqCleared s with
      link := .down, lt := { armed := false, cnt := 0 }, crcTx := frameCrc s.cfg code []
      out := s.out ++ frameOut s.cfg code [] ++ [.linkDown r] } := by
  rw [goDown_eq, sendU_eq]
  rfl

/-! ### CONNECT and DISCONNECT -/

section
variable {s : State}

theorem execConnect_busy (hd : s.dispPend = true) : execConnect s = .next (respond .busy [] s) := if_pos hd

theorem execConnect_up (hd : s.dispPend = false) (hl : s.link = .up) :
    execConnect s = .next (respond .badState [] s) := by
  rw [execConnect, if_neg (ne_true_of_eq_false hd), if_pos hl]

theorem execConnect_notUp (hd : s.dispPend = false) (hl : s.link ≠ .up) :
    execConnect s =
      .next (respond .ok [] (armLT s.cfg.tLink (sendU codeSNRM (seqReset { s with link := .connecting })))) := by
  rw [execConnect, if_neg (ne_true_of_eq_false hd), if_neg hl]

theorem execDisconnect_busy (hd : s.dispPend = true) : execDisconnect s = .next (respond .busy [] s) := if_pos hd

theorem execDisconnect_down (hd : s.dispPend = false) (hl : s.link = .down) :
    execDisconnect s = .next (respond .ok [] s) := by
  rw [execDisconnect, if_neg (ne_true_of_eq_false hd), if_pos hl]

theorem execDisconnect_notDown (hd : s.dispPend = false) (hl : s.link ≠ .down) :
    execDisconnect s = .next (respond .ok [] (goDown .loc (sendU codeDISC s))) := by
  rw [execDisconnect, if_neg (ne_true_of_eq_false hd), if_neg hl]

end

/-- Settles O26: R193's three outcomes, BUSY before BADSTATE. -/
theorem connectResult : Obligations.ConnectResult := by
  unfold Obligations.ConnectResult
  refine ⟨fun _ => rfl, fun s => ⟨execConnect_busy, execConnect_up, fun hd hl => ?connecting⟩⟩
  case connecting =>
    rw [exec, execConnect_notUp hd hl, seqReset_eq, sendU_eq]
    rfl

/-- Settles O27: R194's three outcomes; from Connecting and Up, DISC and then go_down. -/
theorem disconnectResult : Obligations.DisconnectResult := by
  unfold Obligations.DisconnectResult
  refine ⟨fun _ => rfl, fun s => ⟨execDisconnect_busy, execDisconnect_down, fun hd hl => ?goesDown⟩⟩
  case goesDown =>
    rw [exec, execDisconnect_notDown hd hl, goDown_sendU, respond, emit]
    simp only [List.append_assoc, List.cons_append, List.nil_append]
    rfl

/-! ### Received U-frames -/

/-- Settles O28: R196 has no case on LINK. -/
theorem snrmResult : Obligations.SnrmResult := by
  unfold Obligations.SnrmResult
  intro s pf info
  rw [exec, execSnrm, recvSnrm, goUp_eq, seqReset_eq, sendU_eq]
  rfl

/-- Settles O29: R197 by whether LINK is Connecting. -/
theorem uaResult : Obligations.UaResult := by
  unfold Obligations.UaResult
  intro s pf info
  rw [exec, execUa, recvUa]
  refine ⟨fun hl => ?connecting, fun hl => ?elsewhere⟩
  case connecting => rw [if_pos hl, goUp_eq]
  case elsewhere => rw [if_neg hl]

/-- Settles O30: R198 by whether LINK is Up. -/
theorem dmResult : Obligations.DmResult := by
  unfold Obligations.DmResult
  intro s pf info
  rw [exec, execDm, recvDm]
  refine ⟨fun hl => ?up, fun hl => ?elsewhere⟩
  case up => rw [if_pos hl, goDown_eq]
  case elsewhere => rw [if_neg hl]

/-- The UA leaves LINK as it was, so R199's test after it is a test of the state before. -/
theorem recvDisc_eq (s : State) :
    recvDisc s = if s.link = .down then sendU codeUA s else goDown .peerDisc (sendU codeUA s) := rfl

/-- Settles O31: R199 by whether LINK is Down. -/
theorem discResult : Obligations.DiscResult := by
  unfold Obligations.DiscResult
  intro s pf info
  rw [exec, execDisc, recvDisc_eq]
  refine ⟨fun hl => ?down, fun hl => ?elsewhere⟩
  case down =>
    rw [if_pos hl, sendU_eq]
    rfl
  case elsewhere =>
    rw [if_neg hl, goDown_sendU]
    rfl

/-- Settles O32: R200 is one delivery, whatever LINK is. -/
theorem uiResult : Obligations.UiResult := by
  unfold Obligations.UiResult
  intro s pf payload
  rw [exec, execUi, recvUi, deliver, emit]

/-- Settles O33: R201 by whether LINK is Up; neither case reads the code. -/
theorem unknownUResult : Obligations.UnknownUResult := by
  unfold Obligations.UnknownUResult
  intro s code pf info
  rw [exec, execUUnknown, recvUnknownU]
  refine ⟨fun hl => ?up, fun hl => ?elsewhere⟩
  case up =>
    rw [if_pos hl, goDown_sendU]
    rfl
  case elsewhere => rw [if_neg hl]

end Sys2Proof.Machine

/-!
SUPPORT. The transmit window (44_arq_window.md R220 to R227, R236): ack_up_to as a whole next state and what it leaves
alone, then drain and resend_window as whole next states, by induction on the packets each of them sends.
-/

namespace Sys2Proof.Machine

/-! ### Sequence numbers -/

theorem add_one_add_ofNat {w : Nat} (x : BitVec w) (n : Nat) :
    x + 1#w + BitVec.ofNat w n = x + BitVec.ofNat w (n + 1) := by
  rw [Nat.add_comm n 1, BitVec.ofNat_add, add_assoc]

/-- Away from x, the distance from x + 1 is one less than the distance from x. -/
theorem toNat_sub_eq_succ {i x : U3} (h : i ≠ x) : (i - x).toNat = (i - (x + 1)).toNat + 1 := by
  bv_omega

section
variable {s t : State}

/-- One more packet makes the window one longer while the ring has room for it. -/
theorem winCount_succ (hfree : winCount s < 7) (htx : t.winTx = s.winTx + 1) (hack : t.winAck = s.winAck) :
    winCount t = winCount s + 1 := by
  unfold winCount at hfree ⊢
  rw [htx, hack]
  bv_omega

/-- win_queue does not fail below seven packets (R221). -/
theorem winTx_add_one_ne_winAck (hfree : winCount s < 7) : s.winTx + 1 ≠ s.winAck := by
  unfold winCount at hfree
  bv_omega

/-! ### ack_up_to -/

theorem nrValid_of_ackUpTo_eq_some {n : U3} (h : ackUpTo n s = some t) : nrValid s n = true := by
  by_contra hv
  rw [ackUpTo_invalid (Bool.eq_false_iff.2 hv)] at h
  cases h

theorem ackUpTo_rxNext {n : U3} (h : ackUpTo n s = some t) : t.rxNext = s.rxNext := by
  obtain ⟨v, e, -⟩ := ackUpTo_valid (nrValid_of_ackUpTo_eq_some h)
  obtain rfl := Option.some.inj (e.symm.trans h)
  rfl

/-- With N(R) = WIN_ACK nothing is released; an empty window's RT has to be off already for nothing to change. -/
theorem ackUpTo_winAck (hrt : s.winTx = s.winAck → s.rt = .off) : ackUpTo s.winAck s = some s := by
  have valid : nrValid s s.winAck = true := by simp [nrValid]
  have released : (s.winAck - s.winAck).toNat = 0 := by simp
  have empty : winCount s = 0 → s.winTx = s.winAck := by
    unfold winCount
    bv_omega
  simp only [ackUpTo, if_pos valid, released, releaseN]
  split_ifs with hz
  · rw [cancelRT, ← hrt (empty hz)]
  · rfl

end

/-- Settles O35: `ackUpTo_valid` gives the first call, and the second finds N(R) = WIN_ACK with RT already off where
the window is empty. -/
theorem ackReleasesUpToNr : Obligations.AckReleasesUpToNr := by
  unfold Obligations.AckReleasesUpToNr
  refine fun s n => ⟨fun hvalid => ?valid, fun hbeyond => ?beyond⟩
  case valid =>
    obtain ⟨v, first, slots⟩ := ackUpTo_valid ((nrValid_iff s n).2 hvalid)
    exact ⟨v, first, ackUpTo_winAck fun hempty => if_pos hempty, slots⟩
  case beyond =>
    exact ackUpTo_invalid (decide_eq_false hbeyond.not_ge)

/-! ### drain -/

section
variable {s : State} {last : Packet}

/-- One slot filled at WIN_TX, then the slots after it: the slots from WIN_TX on. -/
theorem slotAt_fill_cons {v w : Vector (Option Packet) 8} {x : U3} {q : Packet} {qs : List Packet}
    (h : ∀ i : U3, slotAt w i = if (i - (x + 1)).toNat < qs.length then qs[(i - (x + 1)).toNat]?
      else slotAt (setSlot v x (some q)) i) (hlen : qs.length < 8) (i : U3) :
    slotAt w i = if (i - x).toNat < (q :: qs).length then (q :: qs)[(i - x).toNat]? else slotAt v i := by
  rw [h i]
  by_cases hi : i = x
  · subst hi
    have far : (i - (i + 1)).toNat = 7 := by bv_omega
    have near : (i - i).toNat = 0 := by simp
    rw [far, near, if_neg (by omega), slotAt_setSlot_same, if_pos (by simp)]
    rfl
  · rw [slotAt_setSlot, if_neg hi, toNat_sub_eq_succ hi]
    simp

/-- One turn of drain while the ring has room: the oldest waiting packet goes to slot WIN_TX and out with that N(S). -/
theorem drain_sends_head {q : Packet} {rest : List Packet} (hfifo : s.inFifo = q :: rest) (hup : s.link = .up)
    (hroom : winCount s < s.cfg.allowedInTransit) (hfree : winCount s < 7) :
    ∃ t, drain s = drain t ∧ t = { s with
      inFifo := rest, winSlot := setSlot s.winSlot s.winTx (some q), winTx := s.winTx + 1, txSeq := s.winTx + 1
      rt := { armed := true, cnt := s.cfg.tRetx }, ackPend := false
      crcTx := frameCrc s.cfg (iCtrl s.winTx s.rxNext) q
      out := s.out ++ frameOut s.cfg (iCtrl s.winTx s.rxNext) q } :=
  ⟨_, drain_turn hfifo hup hroom, sendNew_eq q { s with inFifo := rest } (winTx_add_one_ne_winAck hfree)⟩

/-- drain sends qs, whole: the window has room for all of them, and then either is full or nothing waits. The frames
carry N(S) from WIN_TX on, and what one turn sets again in the next (RT, ACK_PEND, CRC_TX) is as the last leaves it. -/
theorem drain_sends {qs rest : List Packet} (hup : s.link = .up) (hparam : s.cfg.allowedInTransit ≤ 7)
    (hfifo : s.inFifo = qs ++ rest) (hlast : qs.getLast? = some last)
    (hroom : winCount s + qs.length ≤ s.cfg.allowedInTransit)
    (hstop : rest = [] ∨ winCount s + qs.length = s.cfg.allowedInTransit) :
    ∃ v, drain s = { s with
        inFifo := rest, winSlot := v, winTx := s.winTx + BitVec.ofNat 3 qs.length
        txSeq := s.winTx + BitVec.ofNat 3 qs.length, rt := { armed := true, cnt := s.cfg.tRetx }
        ackPend := false
        crcTx := frameCrc s.cfg (iCtrl (s.winTx + BitVec.ofNat 3 (qs.length - 1)) s.rxNext) last
        out := s.out ++ iFramesOut s.cfg s.rxNext s.winTx qs } ∧
      ∀ i : U3, slotAt v i =
        if (i - s.winTx).toNat < qs.length then qs[(i - s.winTx).toNat]? else slotAt s.winSlot i := by
  induction qs generalizing s with
  | nil => cases hlast
  | cons q qs ih =>
    rw [List.cons_append] at hfifo
    rw [List.length_cons] at hroom hstop
    have hfree : winCount s < 7 := by omega
    obtain ⟨t, turn, ht⟩ := drain_sends_head hfifo hup (by omega) hfree
    have cfg : t.cfg = s.cfg := by rw [ht]
    have fifo : t.inFifo = qs ++ rest := by rw [ht]
    have longer : winCount t = winCount s + 1 := winCount_succ hfree (by rw [ht]) (by rw [ht])
    cases qs with
    | nil =>
      obtain rfl : q = last := Option.some.inj hlast
      have stop : drain t = t := drain_stop <| by
        rintro ⟨-, waiting, space⟩
        rw [longer, cfg] at space
        rw [fifo] at waiting
        exact hstop.elim waiting fun full => absurd full space.ne
      refine ⟨setSlot s.winSlot s.winTx (some q), ?_, slotAt_fill_cons (qs := []) (by simp) (by simp)⟩
      rw [turn, stop, ht]
      simp [iFramesOut]
    | cons q' qs =>
      obtain ⟨v, next, slots⟩ := ih (s := t) (by rw [ht]; exact hup) (by rw [cfg]; exact hparam) fifo
        (by rw [← hlast, List.getLast?_cons_cons]) (by rw [longer, cfg]; omega)
        (hstop.imp_right fun full => by rw [longer, cfg]; omega)
      rw [ht] at slots
      refine ⟨v, ?_, slotAt_fill_cons slots (by omega)⟩
      rw [turn, next, ht]
      simp [iFramesOut, add_one_add_ofNat]

end

/-- Settles O36: k is how many packets the loop's condition lets through, so `drain_sends` applies to the k oldest. -/
theorem drainSendsOldestFirst : Obligations.DrainSendsOldestFirst := by
  unfold Obligations.DrainSendsOldestFirst
  rintro s ⟨-, -, ⟨-, hparam⟩, -, -⟩ k
  refine ⟨fun hzero => drain_stop ?none, fun hpos => ?some⟩
  case none =>
    rintro ⟨hup, waiting, space⟩
    have := List.length_pos_of_ne_nil waiting
    simp only [k, if_pos hup] at hzero
    omega
  case some =>
    have hup : s.link = .up := by
      by_contra hdown
      simp [k, hdown] at hpos
    have hk : k = min s.inFifo.length (s.cfg.allowedInTransit - winCount s) := if_pos hup
    have htake : (s.inFifo.take k).length = k := by rw [List.length_take]; omega
    obtain ⟨last, hlast⟩ : ∃ q, s.inFifo[k - 1]? = some q := ⟨_, List.getElem?_eq_getElem (by omega)⟩
    have hlast_take : (s.inFifo.take k).getLast? = some last := by
      rw [List.getLast?_eq_getElem?, htake, List.getElem?_take_of_lt (by omega), hlast]
    obtain ⟨v, sent, slots⟩ := drain_sends hup hparam (List.take_append_drop k s.inFifo).symm hlast_take
      (by omega) (by rw [List.drop_eq_nil_iff, htake]; omega)
    rw [htake] at sent slots
    refine ⟨v, _, sent, fun i => ?_, fun q hq => ?_⟩
    · rw [slots i]
      split_ifs with hi
      · exact List.getElem?_take_of_lt hi
      · rfl
    · rw [Option.some.inj (hlast.symm.trans hq)]

/-! ### resend_window -/

/-- One turn of resend_window at a slot that holds q (R225, R236). -/
theorem count_retx_sendI {s : State} {i : U3} {q : Packet} (hslot : slotAt s.winSlot i = some q) :
    count .retx (sendI i s) = { s with
      rt := { armed := true, cnt := s.cfg.tRetx }, ackPend := false
      crcTx := frameCrc s.cfg (iCtrl i s.rxNext) q
      cnt := { s.cnt with retx := s.cnt.retx + 1 }
      out := s.out ++ frameOut s.cfg (iCtrl i s.rxNext) q } := by
  have packet : slotPacket s i = q := by rw [slotPacket, hslot, Option.getD_some]
  rw [sendI, packet]
  rfl

/-- resend_window's loop from slot i over slots that hold ps: the frames carry N(S) from i on, CNT_RETX counts each, and
what one turn sets again in the next is as the last leaves it. -/
theorem resendN_sends {s : State} {ps : List Packet} {last : Packet} {i : U3}
    (hslots : ∀ (j : Nat) (q : Packet), ps[j]? = some q → slotAt s.winSlot (i + BitVec.ofNat 3 j) = some q)
    (hlast : ps.getLast? = some last) :
    resendN ps.length i s = { s with
      rt := { armed := true, cnt := s.cfg.tRetx }, ackPend := false
      crcTx := frameCrc s.cfg (iCtrl (i + BitVec.ofNat 3 (ps.length - 1)) s.rxNext) last
      cnt := { s.cnt with retx := s.cnt.retx + BitVec.ofNat 16 ps.length }
      out := s.out ++ iFramesOut s.cfg s.rxNext i ps } := by
  induction ps generalizing i s with
  | nil => cases hlast
  | cons q ps ih =>
    have turn := count_retx_sendI ((congrArg _ (BitVec.add_zero i).symm).trans (hslots 0 q rfl))
    have hrest : ∀ (j : Nat) (p : Packet), ps[j]? = some p →
        slotAt (count .retx (sendI i s)).winSlot (i + 1 + BitVec.ofNat 3 j) = some p := fun j p hp =>
      (congrArg _ (add_one_add_ofNat i j)).trans (hslots (j + 1) p hp)
    rw [List.length_cons, resendN_succ]
    cases ps with
    | nil =>
      obtain rfl : q = last := Option.some.inj hlast
      rw [turn]
      simp [resendN, iFramesOut]
    | cons q' ps =>
      rw [ih hrest (by rw [← hlast, List.getLast?_cons_cons]), turn]
      simp [iFramesOut, add_one_add_ofNat]

/-- Settles O37: the loop over the packets of the window, WIN_ACK's first. -/
theorem resendWindowResendsAll : Obligations.ResendWindowResendsAll := by
  unfold Obligations.ResendWindowResendsAll
  refine fun s ps hlen hslots => ⟨fun hnil => ?empty, fun q hlast => ?sent⟩
  case empty =>
    rw [hnil, List.length_nil] at hlen
    rw [resendWindow, ← hlen, resendN]
  case sent =>
    rw [resendWindow, ← hlen]
    exact resendN_sends hslots hlast

end Sys2Proof.Machine

/-!
SUPPORT. The ARQ sequencer (44_arq_window.md R228 to R235): what received I-frames and S-frames make of ack_up_to, drain
and resend_window, then SUBMIT and DISPATCH_DONE, an equation per outcome.
-/

namespace Sys2Proof.Machine

/-! ### Received I-frames -/

/-- R226. -/
theorem sendS_eq (fn : BitVec 2) (n : U3) (s : State) :
    sendS fn n s = { s with
      crcTx := frameCrc s.cfg (sCtrl fn n) [], ackPend := false
      out := s.out ++ frameOut s.cfg (sCtrl fn n) [] } := rfl

section
variable {s a : State} {ns nr : U3} {p : Packet}

theorem handleI_notUp (hdown : s.link ≠ .up) : handleI ns nr p s = count .notUpDrop s := if_pos hdown

theorem handleI_outOfSequence (hup : s.link = .up) (hns : ns ≠ s.rxNext) :
    handleI ns nr p s = count .rejSent (sendS fnREJ s.rxNext s) := by
  rw [handleI, if_neg (not_not_intro hup), if_pos hns]

/-- R231, with the state that the frame's N(R) leaves. -/
theorem handleI_inSequence (hup : s.link = .up) :
    handleI s.rxNext nr p s =
      deliver (.deliverPkt p) (drain (acceptNext ((ackUpTo nr s).getD (count .badNr s)))) := by
  rw [handleI, if_neg (not_not_intro hup), if_neg (not_not_intro rfl)]

/-- An accepted frame's last two effects: the window drains and the payload is delivered. drain leaves RX_NEXT. -/
theorem exec_iFrame_inSequence (pf : Bool) (hup : s.link = .up)
    (hack : (ackUpTo nr s).getD (count .badNr s) = a) (hnext : a.rxNext = s.rxNext) :
    let t := drain { a with rxNext := s.rxNext + 1, ackPend := true }
    exec (.iFrame s.rxNext nr pf p) s = .next { t with dispPend := true, out := t.out ++ [.deliverPkt p] } ∧
      t.rxNext = s.rxNext + 1 := by
  refine ⟨?_, drain_rxNext _⟩
  rw [exec, execIFrame, handleI_inSequence hup, hack, acceptNext, hnext]
  rfl

end

/-- Settles O38: `handleI` while not Up, and out of sequence. -/
theorem iFrameDropped : Obligations.IFrameDropped := by
  unfold Obligations.IFrameDropped
  intro s ns nr pf p
  rw [exec, execIFrame]
  refine ⟨fun hdown => ?notUp, fun hup hns => ?outOfSequence⟩
  case notUp =>
    rw [handleI_notUp hdown]
    rfl
  case outOfSequence =>
    rw [handleI_outOfSequence hup hns, sendS_eq]
    rfl

/-- Settles O39: what a valid N(R) releases leaves RX_NEXT, and so does the count of an invalid one. -/
theorem iFrameAccepted : Obligations.IFrameAccepted := by
  unfold Obligations.IFrameAccepted
  refine fun s nr pf p hup => ⟨fun a hack => ?valid, fun hack => ?invalid⟩
  case valid =>
    exact exec_iFrame_inSequence pf hup (by rw [hack, Option.getD_some]) (ackUpTo_rxNext hack)
  case invalid =>
    exact exec_iFrame_inSequence (a := count .badNr s) pf hup (by rw [hack, Option.getD_none]) rfl

/-! ### Received S-frames -/

section
variable {s a : State} {nr : U3}

/-- The checks of R232 let a valid N(R) through in Up. -/
theorem guardS_of_ackUpTo_eq_some (act : State → State) (hup : s.link = .up) (hack : ackUpTo nr s = some a) :
    guardS nr act s = act s := by
  rw [guardS, if_neg (not_not_intro hup), if_pos (nrValid_of_ackUpTo_eq_some hack)]

theorem ackAndDrain_of_some (hack : ackUpTo nr s = some a) : ackAndDrain nr s = drain a := by
  rw [ackAndDrain, hack, Option.getD_some]

/-- R234's test reads the policy after the acknowledgment, which leaves the parameters. -/
theorem ackAndResend_of_some (hack : ackUpTo nr s = some a) :
    ackAndResend nr s =
      drain (if s.cfg.rejPolicy = .goBackN ∧ 0 < winCount a then resendWindow a else a) := by
  simp only [ackAndResend, hack, Option.getD_some, (ackUpTo_sameRx hack).cfg]

end

/-- Settles O41: RR and RNR have one meaning (R233). -/
theorem rrRnrResult : Obligations.RrRnrResult := by
  unfold Obligations.RrRnrResult
  intro s a nr pf info hup hack
  have result : guardS nr (ackAndDrain nr) s = drain a :=
    (guardS_of_ackUpTo_eq_some _ hup hack).trans (ackAndDrain_of_some hack)
  exact ⟨congrArg _ result, congrArg _ result⟩

/-- Settles O42: REJ and SREJ have one meaning (R234), by whether its condition for resending holds. -/
theorem rejSrejResult : Obligations.RejSrejResult := by
  unfold Obligations.RejSrejResult
  intro s a nr pf info hup hack
  have result := (guardS_of_ackUpTo_eq_some (ackAndResend nr) hup hack).trans (ackAndResend_of_some hack)
  refine ⟨fun hpolicy hwaiting => ?resent, fun hskip => ?notResent⟩
  case resent =>
    rw [if_pos ⟨hpolicy, hwaiting⟩] at result
    exact ⟨congrArg _ result, congrArg _ result⟩
  case notResent =>
    have hcond : ¬(s.cfg.rejPolicy = .goBackN ∧ 0 < winCount a) := by
      rintro ⟨hpolicy, hwaiting⟩
      obtain htimer | hempty := hskip
      · cases htimer.symm.trans hpolicy
      · exact hwaiting.ne' hempty
    rw [if_neg hcond] at result
    exact ⟨congrArg _ result, congrArg _ result⟩

/-! ### SUBMIT and DISPATCH_DONE -/

/-- The length byte holds the whole length (R81), so the decoder takes the payload and leaves what follows. -/
theorem decode_submit_append {p : Packet} (hlen : p.length ≤ 255) (rest : List Byte) :
    decode (0x32 :: BitVec.ofNat 8 p.length :: (p ++ rest)) = .ok (.submit p, rest) := by
  have hbyte : (BitVec.ofNat 8 p.length).toNat = p.length := Nat.mod_eq_of_lt (by omega)
  rw [decode_submit_of_whole (by rw [hbyte, List.length_append]; omega), hbyte, List.take_left, List.drop_left]

section
variable {s : State} {p : Packet}

theorem execSubmit_tooLong (hlong : s.cfg.maxFrame - 4 < p.length) :
    execSubmit p s = .next (respond .tooLong [] s) := if_pos hlong

theorem execSubmit_full (hfits : p.length ≤ s.cfg.maxFrame - 4) (hfull : s.inFifo.length = s.cfg.inFifoDepth) :
    execSubmit p s = .next (respond .full [] s) :=
  (if_neg hfits.not_gt).trans (if_pos hfull)

theorem execSubmit_queued (hfits : p.length ≤ s.cfg.maxFrame - 4) (hroom : s.inFifo.length ≠ s.cfg.inFifoDepth) :
    execSubmit p s = .next (respond .ok [] (drain { s with inFifo := s.inFifo ++ [p] })) :=
  (if_neg hfits.not_gt).trans (if_neg hroom)

theorem execDispatchDone_badState (hd : s.dispPend = false) :
    execDispatchDone s = .next (respond .badState [] s) := if_neg (ne_true_of_eq_false hd)

theorem execDispatchDone_owed (hd : s.dispPend = true) (hack : s.ackPend = true) (hup : s.link = .up) :
    execDispatchDone s =
      .next (respond .ok [] { sendS fnRR s.rxNext { s with dispPend := false } with ackPend := false }) := by
  simp only [execDispatchDone, if_pos hd, if_pos (And.intro hack hup)]

theorem execDispatchDone_notOwed (hd : s.dispPend = true) (hnone : s.ackPend = false ∨ s.link ≠ .up) :
    execDispatchDone s = .next (respond .ok [] { s with dispPend := false, ackPend := false }) := by
  have hcond : ¬(s.ackPend = true ∧ s.link = .up) := fun ⟨hack, hup⟩ =>
    hnone.elim (ne_false_of_eq_true hack) fun hdown => hdown hup
  simp only [execDispatchDone, if_pos hd, if_neg hcond]

end

/-- Settles O43: R228's three outcomes, TOOLONG before FULL; none reads LINK or DISP_PEND. -/
theorem submitResult : Obligations.SubmitResult := by
  unfold Obligations.SubmitResult
  exact ⟨fun _ rest hlen => decode_submit_append hlen rest,
    fun _ _ => ⟨execSubmit_tooLong, execSubmit_full, execSubmit_queued⟩⟩

/-- Settles O44: R235's outcomes, with the RR written out where one is owed. -/
theorem dispatchDoneResult : Obligations.DispatchDoneResult := by
  unfold Obligations.DispatchDoneResult
  refine ⟨fun _ => rfl, fun s => ⟨execDispatchDone_badState, fun hd hack hup => ?owed, execDispatchDone_notOwed⟩⟩
  case owed =>
    rw [exec, execDispatchDone_owed hd hack hup, sendS_eq]
    rfl

end Sys2Proof.Machine

/-!
SUPPORT. The timers (45_timers.md R262 to R264): what an expiry and the service of one timer do, an equation per case,
and TICK on the last tick of one timer while the other is idle.
-/

namespace Sys2Proof.Machine

section
variable {s t : State}

/-! ### Expiries -/

/-- R263 while Connecting, with the SNRM written out. -/
theorem linkExpiry_connecting (hl : s.link = .connecting) :
    linkExpiry s = { s with
      lt := { armed := true, cnt := s.cfg.tLink }, crcTx := frameCrc s.cfg codeSNRM []
      out := s.out ++ frameOut s.cfg codeSNRM [] } := by
  rw [linkExpiry, if_pos hl, sendU_eq]
  rfl

theorem linkExpiry_notConnecting (hl : s.link ≠ .connecting) : linkExpiry s = s := if_neg hl

/-- R264 in Up with a filled window: the oldest packet alone is resent. -/
theorem retxExpiry_resends {p : Packet} (hup : s.link = .up) (hwaiting : 0 < winCount s)
    (hslot : slotAt s.winSlot s.winAck = some p) :
    retxExpiry s = { s with
      rt := { armed := true, cnt := s.cfg.tRetx }, ackPend := false
      crcTx := frameCrc s.cfg (iCtrl s.winAck s.rxNext) p
      cnt := { s.cnt with retx := s.cnt.retx + 1 }
      out := s.out ++ frameOut s.cfg (iCtrl s.winAck s.rxNext) p } :=
  (if_pos ⟨hup, hwaiting⟩).trans (count_retx_sendI hslot)

theorem retxExpiry_nothingToResend (hnone : s.link ≠ .up ∨ winCount s = 0) : retxExpiry s = s :=
  if_neg fun ⟨hup, hwaiting⟩ => hnone.elim (fun hdown => hdown hup) hwaiting.ne'

/-! ### The service of one timer -/

theorem tickLT_idle (hidle : s.lt.armed = false) : tickLT s = s := if_neg (ne_true_of_eq_false hidle)

theorem tickRT_idle (hidle : s.rt.armed = false) : tickRT s = s := if_neg (ne_true_of_eq_false hidle)

/-- The timer is already off when its expiry runs. -/
theorem tickLT_lastTick (hlast : s.lt = { armed := true, cnt := 1 }) :
    tickLT s = linkExpiry { s with lt := .off } := by
  have harmed : s.lt.armed = true := congrArg Timer.armed hlast
  have hzero : s.lt.cnt - 1 = 0 := congrArg (Timer.cnt · - 1) hlast
  rw [tickLT, if_pos harmed, if_pos hzero]

/-- The timer is already off when its expiry runs. -/
theorem tickRT_lastTick (hlast : s.rt = { armed := true, cnt := 1 }) :
    tickRT s = retxExpiry { s with rt := .off } := by
  have harmed : s.rt.armed = true := congrArg Timer.armed hlast
  have hzero : s.rt.cnt - 1 = 0 := congrArg (Timer.cnt · - 1) hlast
  rw [tickRT, if_pos harmed, if_pos hzero]

/-! ### TICK -/

theorem exec_tick_serviced (hd : s.dispPend = false) (hpresent : s.cfg.timerPresent = true) :
    exec .tick s = .next (respond .ok [] (tickRT (tickLT s))) :=
  (if_neg (ne_true_of_eq_false hd)).trans (if_pos hpresent)

/-- LT's last tick while RT is idle. No link expiry touches RT, so RT is idle in its own turn as well. -/
theorem exec_tick_ltExpires (hd : s.dispPend = false) (hpresent : s.cfg.timerPresent = true)
    (hlast : s.lt = { armed := true, cnt := 1 }) (hexpiry : linkExpiry { s with lt := .off } = t)
    (hidle : t.rt.armed = false) : exec .tick s = .next (respond .ok [] t) := by
  rw [exec_tick_serviced hd hpresent, tickLT_lastTick hlast, hexpiry, tickRT_idle hidle]

/-- RT's last tick while LT is idle. -/
theorem exec_tick_rtExpires (hd : s.dispPend = false) (hpresent : s.cfg.timerPresent = true)
    (hlast : s.rt = { armed := true, cnt := 1 }) (hidle : s.lt.armed = false)
    (hexpiry : retxExpiry { s with rt := .off } = t) : exec .tick s = .next (respond .ok [] t) := by
  rw [exec_tick_serviced hd hpresent, tickLT_idle hidle, tickRT_lastTick hlast, hexpiry]

end

/-- Settles O47: R263 by whether LINK is Connecting. -/
theorem linkTimerExpiry : Obligations.LinkTimerExpiry := by
  unfold Obligations.LinkTimerExpiry
  refine fun s hd hpresent hlast hidle => ⟨fun hl => ?connecting, fun hl => ?elsewhere⟩
  case connecting =>
    exact exec_tick_ltExpires hd hpresent hlast (linkExpiry_connecting (s := { s with lt := .off }) hl) hidle
  case elsewhere =>
    exact exec_tick_ltExpires hd hpresent hlast (linkExpiry_notConnecting (s := { s with lt := .off }) hl) hidle

/-- Settles O48: R264 by whether there is a packet to resend. -/
theorem retransmitTimerExpiry : Obligations.RetransmitTimerExpiry := by
  unfold Obligations.RetransmitTimerExpiry
  refine fun s hd hpresent hlast hidle => ⟨fun p hup hwaiting hslot => ?resent, fun hnone => ?stopped⟩
  case resent =>
    exact exec_tick_rtExpires hd hpresent hlast hidle
      (retxExpiry_resends (s := { s with rt := .off }) hup hwaiting hslot)
  case stopped =>
    exact exec_tick_rtExpires hd hpresent hlast hidle
      (retxExpiry_nothingToResend (s := { s with rt := .off }) hnone)

end Sys2Proof.Machine

/-!
SUPPORT. NOP and the reserved opcodes (46_control.md R280, R283): which bytes the decoder reads as reserved
(30_encoding.md R83). What the two commands do is one response each.
-/

namespace Sys2Proof

theorem isReservedOpcode_iff (op : Byte) : isReservedOpcode op = true ↔
    (0x03 ≤ op ∧ op ≤ 0x0F) ∨ (0x14 ≤ op ∧ op ≤ 0x1F) ∨ (0x22 ≤ op ∧ op ≤ 0x2F) ∨ (0x34 ≤ op ∧ op ≤ 0x3F) ∨
      0x41 ≤ op := by
  simp only [isReservedOpcode, Bool.or_eq_true, Bool.and_eq_true, decide_eq_true_eq, or_assoc]

theorem decode_of_isReservedOpcode {op : Byte} (h : isReservedOpcode op = true) (rest : List Byte) :
    decode (op :: rest) = .ok (.reserved op, rest) := by
  simp only [decode]
  split
  -- the decoder's last arm, which no opcode of R82 reaches
  case h_15 => rfl
  -- the arms of the opcodes of R82, none of them reserved
  all_goals exact absurd h (by decide)

end Sys2Proof

namespace Sys2Proof.Machine

/-- Settles O50: R83's ranges reach the decoder's last arm, and each command is its response alone in every state. -/
theorem nopAndReservedResult : Obligations.NopAndReservedResult := by
  unfold Obligations.NopAndReservedResult
  refine ⟨fun _ => rfl, fun op rest hrange => ?reserved, fun _ => ⟨rfl, fun _ => rfl⟩⟩
  case reserved => exact decode_of_isReservedOpcode ((isReservedOpcode_iff op).mpr hrange) rest

end Sys2Proof.Machine

/-!
SUPPORT. Command responses (60_exceptions.md R302, R303). What a command does before it responds appends no response of
its own: said first of each shared operation, then of a received frame, a line byte and a timer's service. Then each
command's answer, by the row of R302's table.
-/

namespace Sys2Proof.Machine

/-! ### Output without a response -/

/-- From s to t the output grows, and by no response. -/
def NoNewResponse (s t : State) : Prop := ∃ new, t.out = s.out ++ new ∧ ∀ o ∈ new, isResp o = false

section
variable {s t u : State}

theorem NoNewResponse.of_out_eq (h : t.out = s.out) : NoNewResponse s t :=
  ⟨[], by rw [h, List.append_nil], List.forall_mem_nil _⟩

theorem NoNewResponse.of_lines {ls : List Byte} (h : t.out = s.out ++ ls.map .line) : NoNewResponse s t :=
  ⟨_, h, List.forall_mem_map.mpr fun _ _ => rfl⟩

theorem NoNewResponse.of_event {o : Output} (ho : isResp o = false) (h : t.out = s.out ++ [o]) :
    NoNewResponse s t :=
  ⟨_, h, List.forall_mem_singleton.mpr ho⟩

theorem NoNewResponse.trans (hst : NoNewResponse s t) (htu : NoNewResponse t u) : NoNewResponse s u := by
  obtain ⟨first, hfirst, hquiet⟩ := hst
  obtain ⟨second, hsecond, hquiet'⟩ := htu
  exact ⟨first ++ second, by rw [hsecond, hfirst, List.append_assoc],
    List.forall_mem_append.mpr ⟨hquiet, hquiet'⟩⟩

end

/-! ### The shared operations -/

section
variable (s : State)

theorem sendU_noNewResponse (code : Byte) : NoNewResponse s (sendU code s) := .of_lines (sendU_out s code)

theorem drain_noNewResponse : NoNewResponse s (drain s) := by
  obtain ⟨_, hout⟩ := drain_out s
  exact .of_lines hout

theorem resendWindow_noNewResponse : NoNewResponse s (resendWindow s) := by
  obtain ⟨_, hout⟩ := resendN_out (winCount s) s.winAck s
  exact .of_lines hout

/-- ack_up_to emits nothing, so what becomes of an invalid N(R) decides. -/
theorem ackUpTo_getD_noNewResponse (nr : U3) {d : State} (hd : NoNewResponse s d) :
    NoNewResponse s ((ackUpTo nr s).getD d) := by
  cases hv : nrValid s nr with
  | false => rwa [ackUpTo_invalid hv, Option.getD_none]
  | true =>
    obtain ⟨_, hack, -⟩ := ackUpTo_valid hv
    rw [hack, Option.getD_some]
    exact .of_out_eq rfl

theorem goDown_noNewResponse (r : LinkDownReason) : NoNewResponse s (goDown r s) :=
  .of_event rfl (goDown_out s r)

theorem goUp_noNewResponse : NoNewResponse s (goUp s) :=
  .trans (.of_event (o := .linkUp) rfl rfl) (drain_noNewResponse _)

/-! ### Received frames -/

theorem handleI_noNewResponse (ns nr : U3) (p : Packet) : NoNewResponse s (handleI ns nr p s) := by
  by_cases hup : s.link = .up
  · by_cases hns : ns = s.rxNext
    · subst hns
      have acked : NoNewResponse s ((ackUpTo nr s).getD (count .badNr s)) :=
        ackUpTo_getD_noNewResponse s nr (.of_out_eq rfl)
      have drained := acked.trans (drain_noNewResponse (acceptNext _))
      rw [handleI_inSequence hup]
      exact drained.trans (.of_event (o := .deliverPkt p) rfl rfl)
    · rw [handleI_outOfSequence hup hns]
      exact .of_lines (sendS_out s fnREJ s.rxNext)
  · rw [handleI_notUp hup]
    exact .of_out_eq rfl

theorem guardS_noNewResponse (nr : U3) {act : State → State} (hact : NoNewResponse s (act s)) :
    NoNewResponse s (guardS nr act s) := by
  rw [guardS]
  split_ifs
  · exact .of_out_eq rfl
  · exact hact
  · exact .of_out_eq rfl

theorem ackAndDrain_noNewResponse (nr : U3) : NoNewResponse s (ackAndDrain nr s) :=
  (ackUpTo_getD_noNewResponse s nr (.of_out_eq rfl)).trans (drain_noNewResponse _)

theorem ackAndResend_noNewResponse (nr : U3) : NoNewResponse s (ackAndResend nr s) := by
  refine (ackUpTo_getD_noNewResponse s nr (.of_out_eq rfl)).trans ?_
  simp only [ackAndResend]
  split_ifs
  · exact (resendWindow_noNewResponse _).trans (drain_noNewResponse _)
  · exact drain_noNewResponse _

theorem handleS_noNewResponse (fn : BitVec 2) (nr : U3) : NoNewResponse s (handleS fn nr s) := by
  have drains := guardS_noNewResponse s nr (ackAndDrain_noNewResponse s nr)
  have resends := guardS_noNewResponse s nr (ackAndResend_noNewResponse s nr)
  rw [handleS]
  split_ifs
  exacts [drains, drains, resends, resends]

theorem recvSnrm_noNewResponse : NoNewResponse s (recvSnrm s) :=
  .trans (.of_lines (sendU_out (seqReset s) codeUA)) (goUp_noNewResponse _)

theorem recvUa_noNewResponse : NoNewResponse s (recvUa s) := by
  rw [recvUa]
  split_ifs
  · exact goUp_noNewResponse s
  · exact .of_out_eq rfl

theorem recvDm_noNewResponse : NoNewResponse s (recvDm s) := by
  rw [recvDm]
  split_ifs
  · exact goDown_noNewResponse s .peerDm
  · exact .of_out_eq rfl

theorem recvDisc_noNewResponse : NoNewResponse s (recvDisc s) := by
  have ua := sendU_noNewResponse s codeUA
  rw [recvDisc_eq]
  split_ifs
  · exact ua
  · exact ua.trans (goDown_noNewResponse _ .peerDisc)

theorem recvUi_noNewResponse (p : Packet) : NoNewResponse s (recvUi p s) :=
  .of_event (o := .deliverOob p) rfl rfl

theorem recvUnknownU_noNewResponse : NoNewResponse s (recvUnknownU s) := by
  rw [recvUnknownU]
  split_ifs
  · exact (sendU_noNewResponse s codeDM).trans (goDown_noNewResponse _ .unknownU)
  · exact .of_out_eq rfl

theorem handleU_noNewResponse (code : Byte) (p : Packet) : NoNewResponse s (handleU code p s) := by
  rw [handleU]
  split_ifs
  exacts [recvSnrm_noNewResponse s, recvUa_noNewResponse s, recvDm_noNewResponse s, recvDisc_noNewResponse s,
    recvUi_noNewResponse s p, recvUnknownU_noNewResponse s]

theorem classify_noNewResponse (ctrl : Byte) (p : Packet) : NoNewResponse s (classify ctrl p s) := by
  rw [classify]
  split_ifs
  · exact handleI_noNewResponse s _ _ p
  · exact handleS_noNewResponse s _ _
  · exact handleU_noNewResponse s _ p

end

/-! ### Line bytes -/

section
variable {s t : State}

theorem frameComplete_noNewResponse (h : frameComplete s = .ok t) : NoNewResponse s t := by
  obtain ⟨-, rfl⟩ | ⟨-, -, rfl⟩ | ⟨-, -, -, rfl, -⟩ | ⟨-, -, -, rfl, -⟩ := frameComplete_cases h
  · exact .of_out_eq rfl
  · exact .of_out_eq rfl
  · exact .of_out_eq rfl
  · exact classify_noNewResponse s _ _

theorem rxStore_out (s : State) (b : Byte) : (rxStore b s).out = s.out := by
  rw [rxStore]
  split_ifs <;> rfl

theorem rxAccept_noNewResponse {b : Byte} (h : rxAccept b s = .ok t) : NoNewResponse s t := by
  obtain rfl | ⟨-, -, rfl⟩ | ⟨-, -, rfl⟩ | ⟨-, c, rfl⟩ | ⟨-, -, -, hclosed⟩ := rxAccept_cases h
  · exact .of_out_eq rfl
  · exact .of_out_eq rfl
  · exact .of_out_eq rfl
  · exact .of_out_eq (rxStore_out s c)
  · exact frameComplete_noNewResponse (s := { s with rxState := .idle }) hclosed

end

/-! ### Timers -/

section
variable (s : State)

theorem linkExpiry_noNewResponse : NoNewResponse s (linkExpiry s) := by
  rw [linkExpiry]
  split_ifs
  · exact sendU_noNewResponse s codeSNRM
  · exact .of_out_eq rfl

theorem retxExpiry_noNewResponse : NoNewResponse s (retxExpiry s) := by
  rw [retxExpiry]
  split_ifs
  · exact .of_lines (sendI_out s s.winAck)
  · exact .of_out_eq rfl

theorem tickLT_noNewResponse : NoNewResponse s (tickLT s) := by
  rw [tickLT]
  split_ifs
  · exact linkExpiry_noNewResponse { s with lt := .off }
  · exact .of_out_eq rfl
  · exact .of_out_eq rfl

theorem tickRT_noNewResponse : NoNewResponse s (tickRT s) := by
  rw [tickRT]
  split_ifs
  · exact retxExpiry_noNewResponse { s with rt := .off }
  · exact .of_out_eq rfl
  · exact .of_out_eq rfl

end

/-! ### Answers -/

/-- How a command that answers st may get from s to its next state: by its response alone, or, with OK, by work that
emits no response and then the response. -/
inductive Answer (s : State) : Status → State → Prop
  | alone (st : Status) : Answer s st (respond st [] s)
  | done {t : State} (data : List Byte) (work : NoNewResponse s t) : Answer s .ok (respond .ok data t)

/-- The command answers the status that R302's table gives it; a frame class has none to answer. -/
def AnswersByTable (i : Instr) (s : State) : Prop :=
  ∀ u, exec i s = .next u → ∀ st ∈ statusOf s i, Answer s st u

section
variable {i : Instr} {s : State}

theorem AnswersByTable.of_alone {st : Status} (hexec : exec i s = .next (respond st [] s))
    (hst : statusOf s i = some st) : AnswersByTable i s := by
  intro u hu st' hst'
  obtain rfl := Host.Outcome.next.inj (hexec.symm.trans hu)
  obtain rfl := Option.some.inj (hst.symm.trans hst')
  exact .alone st

theorem AnswersByTable.of_done {t : State} {data : List Byte} (hexec : exec i s = .next (respond .ok data t))
    (hst : statusOf s i = some .ok) (work : NoNewResponse s t) : AnswersByTable i s := by
  intro u hu st' hst'
  obtain rfl := Host.Outcome.next.inj (hexec.symm.trans hu)
  obtain rfl := Option.some.inj (hst.symm.trans hst')
  exact .done data work

theorem AnswersByTable.of_no_status (hst : statusOf s i = none) : AnswersByTable i s := by
  intro u _ st hmem
  cases hst.symm.trans hmem

end

/-! ### The rows of the table -/

section
variable (s : State)

/-- Whether a register has a value depends on its number alone, so the table's rows are read off one by one. -/
theorem regValue_isSome_of_mem_registerTable {b : Byte} (h : b ∈ (registerTable s).map Prod.fst) :
    (regValue s b).isSome = true := by
  have rows : ((registerTable s).all fun e => (regValue s e.1).isSome) = true := rfl
  obtain ⟨e, hmem, rfl⟩ := List.mem_map.mp h
  exact List.all_eq_true.mp rows e hmem

theorem statusOf_readReg_of_mem_registerTable {b : Byte} (h : b ∈ (registerTable s).map Prod.fst) :
    statusOf s (.readReg b) = some .ok := by
  have rows : ((registerTable s).all fun e => statusOf s (.readReg e.1) = some .ok) = true := rfl
  obtain ⟨e, hmem, rfl⟩ := List.mem_map.mp h
  exact of_decide_eq_true (List.all_eq_true.mp rows e hmem)

theorem readReg_answersByTable (b : Byte) : AnswersByTable (.readReg b) s := by
  obtain hmem | unmapped := registerTable_covers s b
  · obtain ⟨v, hv⟩ := Option.isSome_iff_exists.mp (regValue_isSome_of_mem_registerTable s hmem)
    exact .of_done (exec_readReg_of_some hv) (statusOf_readReg_of_mem_registerTable s hmem) (.of_out_eq rfl)
  · exact .of_alone (exec_readReg_of_none (regValue_of_unmapped s unmapped)) (congrArg some (if_neg (by bv_omega)))

theorem rxByte_answersByTable (b : Byte) : AnswersByTable (.rxByte b) s := by
  intro u hu
  obtain ⟨hd, rfl⟩ | ⟨hd, t, haccept, rfl⟩ := execRxByte_cases hu
  · exact AnswersByTable.of_alone (i := .rxByte b) hu (congrArg some (if_pos hd)) _ hu
  · exact AnswersByTable.of_done (i := .rxByte b) hu (congrArg some (if_neg (ne_true_of_eq_false hd)))
      (rxAccept_noNewResponse haccept) _ hu

theorem connect_answersByTable : AnswersByTable .connect s := by
  cases hd : s.dispPend with
  | true => exact .of_alone (execConnect_busy hd) (congrArg some (if_pos hd))
  | false =>
    have idle := ne_true_of_eq_false hd
    by_cases hl : s.link = .up
    · exact .of_alone (execConnect_up hd hl) (congrArg some ((if_neg idle).trans (if_pos hl)))
    · exact .of_done (execConnect_notUp hd hl) (congrArg some ((if_neg idle).trans (if_neg hl)))
        (.of_lines (sendU_out (seqReset s) codeSNRM))

theorem disconnect_answersByTable : AnswersByTable .disconnect s := by
  cases hd : s.dispPend with
  | true => exact .of_alone (execDisconnect_busy hd) (congrArg some (if_pos hd))
  | false =>
    have accepted : statusOf s .disconnect = some .ok := congrArg some (if_neg (ne_true_of_eq_false hd))
    by_cases hl : s.link = .down
    · exact .of_alone (execDisconnect_down hd hl) accepted
    · exact .of_done (execDisconnect_notDown hd hl) accepted
        ((sendU_noNewResponse s codeDISC).trans (goDown_noNewResponse _ .loc))

theorem submit_answersByTable (p : Packet) : AnswersByTable (.submit p) s := by
  by_cases hlong : s.cfg.maxPayload < p.length
  · exact .of_alone (execSubmit_tooLong hlong) (congrArg some (if_pos hlong))
  · have hfits := Nat.not_lt.mp hlong
    by_cases hfull : s.inFifo.length = s.cfg.inFifoDepth
    · exact .of_alone (execSubmit_full hfits hfull) (congrArg some ((if_neg hlong).trans (if_pos hfull)))
    · exact .of_done (execSubmit_queued hfits hfull) (congrArg some ((if_neg hlong).trans (if_neg hfull)))
        (drain_noNewResponse { s with inFifo := s.inFifo ++ [p] })

theorem dispatchDone_answersByTable : AnswersByTable .dispatchDone s := by
  cases hd : s.dispPend with
  | false =>
    exact .of_alone (execDispatchDone_badState hd) (congrArg some (if_neg (ne_true_of_eq_false hd)))
  | true =>
    have accepted : statusOf s .dispatchDone = some .ok := congrArg some (if_pos hd)
    by_cases howed : s.ackPend = true ∧ s.link = .up
    · obtain ⟨hack, hup⟩ := howed
      exact .of_done (execDispatchDone_owed hd hack hup) accepted (.of_lines (sendS_out s fnRR s.rxNext))
    · have hnone : s.ackPend = false ∨ s.link ≠ .up := (not_and_or.mp howed).imp_left eq_false_of_ne_true
      exact .of_done (execDispatchDone_notOwed hd hnone) accepted (.of_out_eq rfl)

theorem tick_answersByTable : AnswersByTable .tick s := by
  cases hd : s.dispPend with
  | true => exact .of_alone (if_pos hd) (congrArg some (if_pos hd))
  | false =>
    have idle := ne_true_of_eq_false hd
    have accepted : statusOf s .tick = some .ok := congrArg some (if_neg idle)
    cases hpresent : s.cfg.timerPresent with
    | true =>
      exact .of_done (exec_tick_serviced hd hpresent) accepted
        ((tickLT_noNewResponse s).trans (tickRT_noNewResponse _))
    | false =>
      exact .of_alone ((if_neg idle).trans (if_neg (ne_true_of_eq_false hpresent))) accepted

/-- One row of R302's table per command; the commands that always answer OK touch the output by their response alone. -/
theorem answersByTable (i : Instr) : AnswersByTable i s := by
  cases i with
  | readReg b => exact readReg_answersByTable s b
  | rxByte b => exact rxByte_answersByTable s b
  | connect => exact connect_answersByTable s
  | disconnect => exact disconnect_answersByTable s
  | submit p => exact submit_answersByTable s p
  | dispatchDone => exact dispatchDone_answersByTable s
  | tick => exact tick_answersByTable s
  | reserved op => exact .of_alone (st := .illegal) rfl rfl
  | nop | softReset | stuff | crcReset | crcUpdate | crcGet | crcGetLast =>
    exact .of_done rfl rfl (.of_out_eq rfl)
  | iFrame | rr | rnr | rej | srej | snrm | ua | dm | disc | ui | uUnknown => exact .of_no_status rfl

end

/-- Settles O54: every command answers by R302's table, and either kind of answer ends in its one response. -/
theorem statusOfEveryCommand : Obligations.StatusOfEveryCommand := by
  unfold Obligations.StatusOfEveryCommand
  intro i s t st hexec hst
  cases answersByTable s i t hexec st hst with
  | alone => exact ⟨⟨[], [], by rw [List.append_nil]; rfl, List.forall_mem_nil _⟩, fun _ => rfl⟩
  | done data work =>
    obtain ⟨mid, hmid, hquiet⟩ := work
    exact ⟨⟨mid, data, by rw [respond_out, hmid], hquiet⟩, fun hne => absurd rfl hne⟩

end Sys2Proof.Machine

/-!
SUPPORT. Power-on reset (70_reset_and_hazards.md R330). An element that is one value is read off its field of
`State.resetWith`; the three elements that are families are reset member by member.
-/

namespace Sys2Proof.Machine

@[simp] theorem counterValue_zero (c : Counter) : counterValue c .zero = 0 := by cases c <;> rfl

/-- The three CRC instances share one reset value (10_state.md R22, R36). -/
theorem resetWith_crc_eq_initial {p : Params} {c : Crc}
    (h : c ∈ [(State.resetWith p).crcH, (State.resetWith p).crcRx, (State.resetWith p).crcTx]) : c = .initial :=
  List.eq_of_mem_replicate (n := 3) h

/-- Settles O53: R36's values field by field, with the CRC instances, the window slots and the counters by their
lemmas. No field but `cfg` reads the parameters. -/
theorem resetState : Obligations.ResetState := by
  unfold Obligations.ResetState
  intro p
  refine ⟨?crc, rfl, rfl, rfl, rfl, rfl, rfl, ?slots, rfl, rfl, rfl, rfl, rfl, rfl, rfl, ?counters⟩
  case crc =>
    intro c hc
    obtain rfl := resetWith_crc_eq_initial hc
    exact ⟨rfl, rfl, rfl⟩
  case slots => exact slotAt_empty
  case counters => exact counterValue_zero

end Sys2Proof.Machine

/-!
SUPPORT. Encoding and decoding (30_encoding.md sections 1 and 2): the fields of a control byte, built and read back, and
the two decoders against the encoder in both directions.
-/

namespace Sys2Proof

/-! ### Control bytes: what is built reads back -/

/-- R89, R92: the fields of an I-frame's control byte. -/
theorem withPf_iCtrl_fields : ∀ (ns nr : U3) (pf : Bool),
    isICtrl (withPf pf (iCtrl ns nr)) = true ∧ ctrlNs (withPf pf (iCtrl ns nr)) = ns ∧
    ctrlNr (withPf pf (iCtrl ns nr)) = nr ∧ ctrlPf (withPf pf (iCtrl ns nr)) = pf := by
  decide +kernel

/-- R90, R92: the fields of an S-frame's control byte. -/
theorem withPf_sCtrl_fields : ∀ (fn : BitVec 2) (nr : U3) (pf : Bool),
    isICtrl (withPf pf (sCtrl fn nr)) = false ∧ isSCtrl (withPf pf (sCtrl fn nr)) = true ∧
    ctrlFn (withPf pf (sCtrl fn nr)) = fn ∧ ctrlNr (withPf pf (sCtrl fn nr)) = nr ∧
    ctrlPf (withPf pf (sCtrl fn nr)) = pf := by
  decide +kernel

/-- R91, R92: the fields of a U-frame's control byte; the code is one with P/F clear. -/
theorem withPf_uCode_fields : ∀ (code : Byte) (pf : Bool), code &&& 0x13 = 0x03 →
    isICtrl (withPf pf code) = false ∧ isSCtrl (withPf pf code) = false ∧
    ctrlUCode (withPf pf code) = code ∧ ctrlPf (withPf pf code) = pf := by
  decide +kernel

/-! ### Control bytes: what is read builds the same byte again -/

theorem withPf_iCtrl_of_isICtrl : ∀ c : Byte, isICtrl c = true →
    withPf (ctrlPf c) (iCtrl (ctrlNs c) (ctrlNr c)) = c := by
  decide +kernel

theorem withPf_sCtrl_of_isSCtrl : ∀ c : Byte, isSCtrl c = true →
    withPf (ctrlPf c) (sCtrl (ctrlFn c) (ctrlNr c)) = c := by
  decide +kernel

theorem withPf_ctrlUCode : ∀ c : Byte, withPf (ctrlPf c) (ctrlUCode c) = c := by
  decide +kernel

theorem ctrlUCode_of_isUCtrl : ∀ c : Byte, isICtrl c = false → isSCtrl c = false → ctrlUCode c &&& 0x13 = 0x03 := by
  decide +kernel

/-- R90: SREJ is the function that is none of the other three. -/
theorem eq_fnSREJ : ∀ fn : BitVec 2, fn ≠ fnRR → fn ≠ fnRNR → fn ≠ fnREJ → fn = fnSREJ := by
  decide

/-! ### Frame classes -/

theorem isUnknownUCode_iff (code : Byte) : isUnknownUCode code = true ↔
    code &&& 0x13 = 0x03 ∧ code ≠ codeSNRM ∧ code ≠ codeUA ∧ code ≠ codeDM ∧ code ≠ codeDISC ∧ code ≠ codeUI := by
  simp only [isUnknownUCode, Bool.and_eq_true, beq_iff_eq, Bool.not_eq_true', Bool.or_eq_false_iff,
    beq_eq_false_iff_ne, and_assoc, codeSNRM, codeUA, codeDM, codeDISC, codeUI]

theorem decodeFrame_iCtrl (ns nr : U3) (pf : Bool) (p : Packet) :
    decodeFrame (withPf pf (iCtrl ns nr)) p = .iFrame ns nr pf p := by
  obtain ⟨isI, hns, hnr, hpf⟩ := withPf_iCtrl_fields ns nr pf
  rw [decodeFrame_of_isICtrl isI, hns, hnr, hpf]

/-- An S-frame's class by its function field alone (R90). -/
theorem decodeFrame_sCtrl (fn : BitVec 2) (nr : U3) (pf : Bool) (p : Packet) :
    decodeFrame (withPf pf (sCtrl fn nr)) p =
      if fn = fnRR then .rr nr pf p else if fn = fnRNR then .rnr nr pf p
      else if fn = fnREJ then .rej nr pf p else .srej nr pf p := by
  obtain ⟨notI, isS, hfn, hnr, hpf⟩ := withPf_sCtrl_fields fn nr pf
  simp only [decodeFrame, notI, isS, hfn, hnr, hpf, Bool.false_eq_true, if_true, if_false]

/-- A U-frame's class by its code alone (R91). -/
theorem decodeFrame_uCode {code : Byte} (hcode : code &&& 0x13 = 0x03) (pf : Bool) (p : Packet) :
    decodeFrame (withPf pf code) p =
      if code = codeSNRM then .snrm pf p else if code = codeUA then .ua pf p
      else if code = codeDM then .dm pf p else if code = codeDISC then .disc pf p
      else if code = codeUI then .ui pf p else .uUnknown code pf p := by
  obtain ⟨notI, notS, hc, hpf⟩ := withPf_uCode_fields code pf hcode
  simp only [decodeFrame, notI, notS, hc, hpf, Bool.false_eq_true, if_false]

theorem decodeFrame_unknownUCode {code : Byte} (h : isUnknownUCode code = true) (pf : Bool) (p : Packet) :
    decodeFrame (withPf pf code) p = .uUnknown code pf p := by
  obtain ⟨hcode, notSnrm, notUa, notDm, notDisc, notUi⟩ := (isUnknownUCode_iff code).1 h
  rw [decodeFrame_uCode hcode, if_neg notSnrm, if_neg notUa, if_neg notDm, if_neg notDisc, if_neg notUi]

/-- Settles O2: by the class of the frame, each from the fields its control byte was built of. -/
theorem framesDecodeToThemselves : Obligations.FramesDecodeToThemselves := by
  unfold Obligations.FramesDecodeToThemselves
  intro i hwf hframe
  cases i with
  | iFrame ns nr pf p => exact ⟨_, _, rfl, decodeFrame_iCtrl ns nr pf p⟩
  | rr nr pf p => exact ⟨_, _, rfl, decodeFrame_sCtrl fnRR nr pf p⟩
  | rnr nr pf p => exact ⟨_, _, rfl, decodeFrame_sCtrl fnRNR nr pf p⟩
  | rej nr pf p => exact ⟨_, _, rfl, decodeFrame_sCtrl fnREJ nr pf p⟩
  | srej nr pf p => exact ⟨_, _, rfl, decodeFrame_sCtrl fnSREJ nr pf p⟩
  | snrm pf p => exact ⟨_, _, rfl, decodeFrame_uCode (code := codeSNRM) rfl pf p⟩
  | ua pf p => exact ⟨_, _, rfl, decodeFrame_uCode (code := codeUA) rfl pf p⟩
  | dm pf p => exact ⟨_, _, rfl, decodeFrame_uCode (code := codeDM) rfl pf p⟩
  | disc pf p => exact ⟨_, _, rfl, decodeFrame_uCode (code := codeDISC) rfl pf p⟩
  | ui pf p => exact ⟨_, _, rfl, decodeFrame_uCode (code := codeUI) rfl pf p⟩
  | uUnknown code pf p =>
    have hcode : isUnknownUCode code = true := (Bool.and_eq_true_iff.1 hwf).1
    exact ⟨_, _, rfl, decodeFrame_unknownUCode hcode pf p⟩
  | nop | softReset | readReg | crcReset | crcUpdate | crcGet | crcGetLast | rxByte | stuff | connect | disconnect
  | submit | dispatchDone | tick | reserved => cases hframe

/-- Settles O4: along the decoder's tests, each class carries exactly the fields its control byte is rebuilt from. -/
theorem decodedFramesReencode : Obligations.DecodedFramesReencode := by
  unfold Obligations.DecodedFramesReencode
  intro ctrl info
  have sByte {fn : BitVec 2} (isS : isSCtrl ctrl = true) (hfn : ctrlFn ctrl = fn) :
      withPf (ctrlPf ctrl) (sCtrl fn (ctrlNr ctrl)) :: info = ctrl :: info :=
    hfn ▸ congrArg (· :: info) (withPf_sCtrl_of_isSCtrl ctrl isS)
  have uByte {code : Byte} (hcode : ctrlUCode ctrl = code) :
      withPf (ctrlPf ctrl) code :: info = ctrl :: info :=
    hcode ▸ congrArg (· :: info) (withPf_ctrlUCode ctrl)
  simp only [decodeFrame]
  split_ifs with isI isS hRr hRnr hRej hSnrm hUa hDm hDisc hUi
  · exact ⟨rfl, congrArg (· :: info) (withPf_iCtrl_of_isICtrl ctrl isI), decide_eq_true⟩
  · exact ⟨rfl, sByte isS hRr, decide_eq_true⟩
  · exact ⟨rfl, sByte isS hRnr, decide_eq_true⟩
  · exact ⟨rfl, sByte isS hRej, decide_eq_true⟩
  · exact ⟨rfl, sByte isS (eq_fnSREJ _ hRr hRnr hRej), decide_eq_true⟩
  · exact ⟨rfl, uByte hSnrm, decide_eq_true⟩
  · exact ⟨rfl, uByte hUa, decide_eq_true⟩
  · exact ⟨rfl, uByte hDm, decide_eq_true⟩
  · exact ⟨rfl, uByte hDisc, decide_eq_true⟩
  · exact ⟨rfl, uByte hUi, decide_eq_true⟩
  · have hcode := ctrlUCode_of_isUCtrl ctrl (eq_false_of_ne_true isI) (eq_false_of_ne_true isS)
    have unknown := (isUnknownUCode_iff _).2 ⟨hcode, hSnrm, hUa, hDm, hDisc, hUi⟩
    exact ⟨rfl, uByte rfl, fun hlen => Bool.and_eq_true_iff.2 ⟨unknown, decide_eq_true hlen⟩⟩

/-! ### Commands -/

/-- Settles O1: every command's bytes are the decoder's pattern but for SUBMIT, whose length byte says where the payload
ends, and a reserved opcode, which reaches the decoder's last arm. -/
theorem commandsDecodeToThemselves : Obligations.CommandsDecodeToThemselves := by
  unfold Obligations.CommandsDecodeToThemselves
  intro i rest hwf hcommand
  cases i with
  | submit p => exact Machine.decode_submit_append (of_decide_eq_true hwf) rest
  | reserved op => exact decode_of_isReservedOpcode hwf rest
  | nop | softReset | readReg | crcReset | crcUpdate | crcGet | crcGetLast | rxByte | stuff | connect | disconnect
  | dispatchDone | tick => rfl
  | iFrame | rr | rnr | rej | srej | snrm | ua | dm | disc | ui | uUnknown => cases hcommand

/-- R82 and R83 share out the 256 opcodes. -/
theorem opcode_reserved_or_command : ∀ op : Byte, isReservedOpcode op = true ∨
    op ∈ ([0x00, 0x01, 0x02, 0x10, 0x11, 0x12, 0x13, 0x20, 0x21, 0x30, 0x31, 0x32, 0x33, 0x40] : List Byte) := by
  decide +kernel

theorem decodeC1_eq_ok {op : Byte} {mk : Byte → Instr} {bytes rest : List Byte} {i : Instr}
    (h : decodeC1 op mk bytes = .ok (i, rest)) : ∃ b, bytes = b :: rest ∧ i = mk b := by
  cases bytes with
  | nil => cases h
  | cons b tail => cases h; exact ⟨b, rfl, rfl⟩

theorem decodeCV_eq_ok {op : Byte} {mk : Packet → Instr} {bytes rest : List Byte} {i : Instr}
    (h : decodeCV op mk bytes = .ok (i, rest)) :
    ∃ p : Packet, p.length ≤ 255 ∧ bytes = BitVec.ofNat 8 p.length :: (p ++ rest) ∧ i = mk p := by
  cases bytes with
  | nil => cases h
  | cons len tail =>
    simp only [decodeCV] at h
    split_ifs at h with hshort
    cases h
    have hlen : (tail.take len.toNat).length = len.toNat := by rw [List.length_take]; omega
    refine ⟨tail.take len.toNat, by rw [hlen]; exact Nat.le_of_lt_succ len.isLt, ?_, rfl⟩
    rw [hlen, BitVec.ofNat_toNat, BitVec.setWidth_eq, List.take_append_drop]

/-- Settles O3: by the opcode. -/
theorem decodedCommandsReencode : Obligations.DecodedCommandsReencode := by
  unfold Obligations.DecodedCommandsReencode
  intro bytes rest i h
  cases bytes with
  | nil => cases h
  | cons op tail =>
    obtain hres | hcommand := opcode_reserved_or_command op
    · rw [decode_of_isReservedOpcode hres] at h
      cases h
      exact ⟨hres, rfl, rfl⟩
    · simp only [decode] at h
      split at h
      -- format C1
      case h_3 | h_5 | h_8 | h_9 =>
        obtain ⟨b, rfl, rfl⟩ := decodeC1_eq_ok h
        exact ⟨rfl, rfl, rfl⟩
      -- format CV
      case h_12 =>
        obtain ⟨p, hlen, rfl, rfl⟩ := decodeCV_eq_ok h
        exact ⟨decide_eq_true hlen, rfl, rfl⟩
      -- the decoder's last arm
      case h_15 => simp_all
      all_goals
        cases h
        exact ⟨rfl, rfl, rfl⟩

/-- R81's three formats: no operand, C1, and CV, which is SUBMIT's alone. -/
theorem opcode_format : ∀ op : Byte, op ∉ ([0x02, 0x11, 0x20, 0x21, 0x32] : List Byte) ∨
    op ∈ ([0x02, 0x11, 0x20, 0x21] : List Byte) ∨ op = 0x32 := by
  decide +kernel

/-- A stream as long as the longest command holds a whole one (R81, R97). -/
theorem decode_of_maxCommandBytes_le {bytes : List Byte} (h : maxCommandBytes ≤ bytes.length) :
    ∃ i rest, decode bytes = .ok (i, rest) := by
  obtain _ | ⟨op, _ | ⟨b, tail⟩⟩ := bytes
  · cases h
  · simp [maxCommandBytes] at h
  · obtain plain | c1 | rfl := opcode_format op
    · obtain ⟨i, hi⟩ := decode_of_no_operand plain (b :: tail)
      exact ⟨i, _, hi⟩
    · obtain ⟨mk, hmk⟩ := decode_of_mem_c1 c1
      exact ⟨_, _, hmk (b :: tail)⟩
    · have hlen : b.toNat ≤ tail.length := by
        have := b.isLt
        simp only [maxCommandBytes, List.length_cons] at h
        omega
      exact ⟨_, _, decode_submit_of_whole hlen⟩

/-- Only the empty stream holds no command at all; any other failure to decode is a command cut short (R97). -/
theorem decode_eq_noCommand {bytes : List Byte} (h : decode bytes = .error .noCommand) : bytes = [] := by
  cases bytes with
  | nil => rfl
  | cons op tail =>
    obtain plain | c1 | rfl := opcode_format op
    · obtain ⟨i, hi⟩ := decode_of_no_operand plain tail
      cases hi.symm.trans h
    · obtain ⟨mk, hmk⟩ := decode_of_mem_c1 c1
      rw [hmk] at h
      cases tail <;> cases h
    · obtain _ | ⟨len, tail⟩ := tail
      · cases h
      · by_cases hlen : tail.length < len.toNat
        · cases (decode_submit_of_short hlen).symm.trans h
        · cases (decode_submit_of_whole (Nat.not_lt.1 hlen)).symm.trans h

/-- Settles O5: each word by computation. -/
theorem specWordsDecode : Obligations.SpecWordsDecode := by
  unfold Obligations.SpecWordsDecode
  exact ⟨rfl, rfl, rfl, rfl, rfl, rfl, rfl, by decide, by decide, by decide, by decide⟩

theorem iCtrl_toNat : ∀ ns nr : U3, (iCtrl ns nr).toNat = nr.toNat * 32 + ns.toNat * 2 := by
  decide +kernel

theorem sCtrl_toNat : ∀ (fn : BitVec 2) (nr : U3), (sCtrl fn nr).toNat = nr.toNat * 32 + fn.toNat * 4 + 1 := by
  decide +kernel

/-- Settles O8: the fields read back as for a received control byte, with P/F = 0. -/
theorem sentControlBytes : Obligations.SentControlBytes := by
  unfold Obligations.SentControlBytes
  refine ⟨fun ns nr => ?iFrame, fun fn nr => ?sFrame⟩
  case iFrame =>
    obtain ⟨-, hns, hnr, hpf⟩ := withPf_iCtrl_fields ns nr false
    exact ⟨iCtrl_toNat ns nr, hns, hnr, hpf⟩
  case sFrame =>
    obtain ⟨-, -, hfn, hnr, hpf⟩ := withPf_sCtrl_fields fn nr false
    exact ⟨sCtrl_toNat fn nr, hfn, hnr, hpf⟩

/-! ### Table words -/

/-- Every table word reads as a command, and withFetchWord keeps exactly that command's bytes. -/
theorem decodeTableWord_spec (nbits w : Nat) : ∃ i, decodeTableWord nbits w = some i ∧
    ∀ rest, decode (tableCommand nbits w ++ rest) = .ok (i, rest) := by
  have hlong : maxCommandBytes ≤ (tableStream nbits w).length := by
    rw [tableStream, List.length_append, List.length_replicate]
    omega
  obtain ⟨i, tail, hi⟩ := decode_of_maxCommandBytes_le hlong
  obtain ⟨hwf, hcommand, hbytes⟩ := decodedCommandsReencode _ _ _ hi
  have taken : tableCommand nbits w = encode i := by
    simp only [tableCommand, hi]
    rw [← hbytes, List.length_append, Nat.add_sub_cancel, List.take_left]
  refine ⟨i, by simp only [decodeTableWord, hi], fun rest => ?_⟩
  rw [taken]
  exact commandsDecodeToThemselves i rest hwf hcommand

end Sys2Proof

/-!
SUPPORT. One step of the block (30_encoding.md R80, R97) and P/F on receive (R92).
-/

namespace Sys2Proof.Machine

theorem step_of_decode {s : State} {i : Instr} {rest : List Byte} (h : decode s.input = .ok (i, rest)) :
    step s = exec i { s with input := rest } := by
  simp only [step, h]

theorem step_of_no_input {s : State} (h : s.input = []) : step s = .refused .commandStreamEnded := by
  simp only [step, h, decode]

theorem step_of_incomplete {s : State} {e : DecodeRefusal} (hinput : s.input ≠ []) (h : decode s.input = .error e) :
    step s = .refused .incompleteCommand := by
  cases e with
  | noCommand => exact absurd (decode_eq_noCommand h) hinput
  | missingOperand | missingPayload => simp only [step, h]

/-- Settles O9. -/
theorem stepRunsDecodedInstruction : Obligations.StepRunsDecodedInstruction := by
  unfold Obligations.StepRunsDecodedInstruction
  exact ⟨fun _ _ _ => step_of_decode, fun _ => step_of_no_input, fun _ _ => step_of_incomplete⟩

/-- Settles O10: the word's command is decoded off the head of the stream, and the state's own input is the rest. -/
theorem fetchWordRunsItsRow : Obligations.FetchWordRunsItsRow := by
  unfold Obligations.FetchWordRunsItsRow
  intro s nbits w
  obtain ⟨i, hword, hdecode⟩ := decodeTableWord_spec nbits w
  exact ⟨i, hword, step_of_decode (s := s.withFetchWord nbits w) (hdecode s.input)⟩

/-- Bit 4 is in none of the fields that classify reads (R88 to R91). -/
theorem ctrl_fields_xor_pf : ∀ c : Byte,
    isICtrl (c ^^^ 0x10) = isICtrl c ∧ isSCtrl (c ^^^ 0x10) = isSCtrl c ∧ ctrlNs (c ^^^ 0x10) = ctrlNs c ∧
    ctrlNr (c ^^^ 0x10) = ctrlNr c ∧ ctrlFn (c ^^^ 0x10) = ctrlFn c ∧ ctrlUCode (c ^^^ 0x10) = ctrlUCode c := by
  decide +kernel

theorem classify_xor_pf (ctrl : Byte) (p : Packet) (s : State) :
    classify (ctrl ^^^ 0x10) p s = classify ctrl p s := by
  obtain ⟨isI, isS, ns, nr, fn, code⟩ := ctrl_fields_xor_pf ctrl
  rw [classify, isI, isS, ns, nr, fn, code]
  rfl

/-- Settles O59: a decoded frame class runs as `classify`, which reads every field but P/F. -/
theorem pollFinalIgnored : Obligations.PollFinalIgnored := by
  unfold Obligations.PollFinalIgnored
  intro ctrl info s
  rw [exec_decodeFrame, exec_decodeFrame, classify_xor_pf]

end Sys2Proof.Machine

/-!
SUPPORT. The CRC engine (40_crc.md): both variants' bit steps are additive over XOR and lose nothing, which gives the
byte-wise form (R122), the residue and the detection of a changed byte (R128).
-/

namespace Sys2Proof.Machine

/-! ### Bit steps -/

/-- The bit step of a variant (R120, R121). -/
def crcShift : CrcVariant → U16 → U16
  | .reflected8408 => crcShiftReflected
  | .msbFirst1021 => crcShiftMsb

/-- Where a variant adds a byte to the running value (R120, R121). -/
def crcInput : CrcVariant → Byte → U16
  | .reflected8408, b => b.setWidth 16
  | .msbFirst1021, b => b.setWidth 16 <<< 8

theorem crcStep_eq (v : CrcVariant) (c : U16) (b : Byte) : crcStep v c b = (crcShift v)^[8] (c ^^^ crcInput v b) := by
  cases v <;> rfl

/-- A constant k that each of two values asks for or not enters their XOR where exactly one of them does. -/
theorem xor_feedback (k x y : U16) (p q : Bool) :
    (if (p ^^ q) then x ^^^ y ^^^ k else x ^^^ y) = (if p then x ^^^ k else x) ^^^ (if q then y ^^^ k else y) := by
  have cancel : x ^^^ k ^^^ (y ^^^ k) = x ^^^ y := by
    calc x ^^^ k ^^^ (y ^^^ k) = x ^^^ y ^^^ (k ^^^ k) := by ac_rfl
      _ = x ^^^ y := by rw [BitVec.xor_self, BitVec.xor_zero]
  cases p <;> cases q
  · rfl
  · exact BitVec.xor_assoc x y k
  · exact show x ^^^ y ^^^ k = x ^^^ k ^^^ y by ac_rfl
  · exact cancel.symm

theorem crcShift_xor (v : CrcVariant) (x y : U16) : crcShift v (x ^^^ y) = crcShift v x ^^^ crcShift v y := by
  cases v with
  | reflected8408 =>
    simp only [crcShift, crcShiftReflected, BitVec.getLsbD_xor, BitVec.ushiftRight_xor_distrib]
    exact xor_feedback _ _ _ _ _
  | msbFirst1021 =>
    simp only [crcShift, crcShiftMsb, BitVec.getLsbD_xor, BitVec.shiftLeft_xor_distrib]
    exact xor_feedback _ _ _ _ _

/-- The constant 0x8408 has bit 15 set and 0x1021 bit 0, where the shifted value has a 0, so no set bit is lost. -/
theorem eq_zero_of_crcShift_eq_zero {v : CrcVariant} {x : U16} (h : crcShift v x = 0) : x = 0 := by
  cases v with
  | reflected8408 =>
    simp only [crcShift, crcShiftReflected, BitVec.getLsbD, Nat.testBit_zero, decide_eq_true_eq] at h
    split_ifs at h with odd
    · have := BitVec.xor_eq_zero_iff.1 h
      bv_omega
    · bv_omega
  | msbFirst1021 =>
    have high : x.getLsbD 15 = decide (2 ^ 15 ≤ x.toNat) := BitVec.msb_eq_decide x
    simp only [crcShift, crcShiftMsb, high, decide_eq_true_eq] at h
    split_ifs at h with top
    · have := BitVec.xor_eq_zero_iff.1 h
      bv_omega
    · bv_omega

theorem crcShift_iterate_xor (v : CrcVariant) (n : Nat) (x y : U16) :
    (crcShift v)^[n] (x ^^^ y) = (crcShift v)^[n] x ^^^ (crcShift v)^[n] y :=
  Function.Semiconj₂.iterate (crcShift_xor v) n x y

theorem crcShift_injective (v : CrcVariant) : Function.Injective (crcShift v) := by
  intro x y h
  rw [← BitVec.xor_eq_zero_iff] at h ⊢
  exact eq_zero_of_crcShift_eq_zero ((crcShift_xor v x y).trans h)

theorem crcInput_injective (v : CrcVariant) : Function.Injective (crcInput v) := by
  intro a b h
  cases v with
  | reflected8408 => simp only [crcInput] at h; bv_omega
  | msbFirst1021 => simp only [crcInput] at h; bv_omega

theorem crcStep_left_injective (v : CrcVariant) (b : Byte) : Function.Injective fun c => crcStep v c b := by
  intro c d h
  simp only [crcStep_eq] at h
  exact (BitVec.xor_left_inj _).1 ((crcShift_injective v).iterate 8 h)

theorem crcStep_right_injective (v : CrcVariant) (c : U16) : Function.Injective (crcStep v c) := by
  intro a b h
  simp only [crcStep_eq] at h
  exact crcInput_injective v ((BitVec.xor_right_inj _).1 ((crcShift_injective v).iterate 8 h))

/-! ### A 16-bit value as two bytes -/

theorem high_append_low (c : U16) : (c >>> 8).setWidth 8 ++ c.setWidth 8 = c := by
  rw [BitVec.setWidth_ushiftRight_eq_extractLsb, BitVec.setWidth_eq_extractLsb' (by decide)]
  exact BitVec.extractLsb'_append_extractLsb'

theorem high_of_append (h l : Byte) : ((h ++ l : U16) >>> 8).setWidth 8 = h := by
  rw [BitVec.setWidth_ushiftRight_eq_extractLsb, BitVec.extractLsb'_append_eq_left]

theorem low_of_append (h l : Byte) : (h ++ l : U16).setWidth 8 = l := BitVec.setWidth_append_eq_right

theorem byte_setWidth_eq_append (b : Byte) : b.setWidth 16 = (0#8 ++ b : U16) := BitVec.setWidth_eq_append (by decide)

theorem shiftRight_eq_high (c : U16) : c >>> 8 = ((c >>> 8).setWidth 8).setWidth 16 := by
  bv_omega

theorem bytes_eq_append_zero_xor (h l : Byte) : (h ++ l : U16) = (h ++ 0#8) ^^^ (0#8 ++ l) := by
  rw [BitVec.xor_append, BitVec.xor_zero, BitVec.zero_xor]

/-! ### The byte-wise form (R122) and the residue (R128 item 2) -/

/-- The high byte of a value passes through eight reflected bit steps untouched. -/
theorem crcShift_iterate_high : ∀ h : Byte, (crcShift .reflected8408)^[8] (h ++ 0#8) = h.setWidth 16 := by
  decide +kernel

/-- A reflected step by its two bytes: the high one moves down, and the low one meets the input byte. -/
theorem crcStepReflected_append (h l b : Byte) :
    crcStepReflected (h ++ l) b = h.setWidth 16 ^^^ crcStepReflected 0#16 (l ^^^ b) := by
  have input : (h ++ l : U16) ^^^ b.setWidth 16 = (h ++ 0#8) ^^^ (0#8 ++ (l ^^^ b)) := by
    rw [byte_setWidth_eq_append, BitVec.xor_append, BitVec.xor_zero, bytes_eq_append_zero_xor]
  have low : crcStepReflected 0#16 (l ^^^ b) = (crcShift .reflected8408)^[8] (0#8 ++ (l ^^^ b)) := by
    rw [crcStepReflected, BitVec.zero_xor, byte_setWidth_eq_append]
    rfl
  calc crcStepReflected (h ++ l) b
      = (crcShift .reflected8408)^[8] ((h ++ l : U16) ^^^ b.setWidth 16) := rfl
    _ = h.setWidth 16 ^^^ crcStepReflected 0#16 (l ^^^ b) := by
      rw [input, crcShift_iterate_xor, crcShift_iterate_high, low]

/-- The byte-wise form by the value's two bytes, as `crcStepReflected_append`. -/
theorem crcStepAvr_append (h l b : Byte) :
    crcStepAvr (h ++ l) b = h.setWidth 16 ^^^ crcStepAvr 0#16 (l ^^^ b) := by
  have input : b ^^^ l = l ^^^ b ^^^ (0#16).setWidth 8 := by
    rw [BitVec.setWidth_zero, BitVec.xor_zero, BitVec.xor_comm]
  have top (d : Byte) : (d ++ h : U16) = (0#8 ++ h) ^^^ (d ++ (0#16 >>> 8).setWidth 8) := by
    rw [BitVec.xor_append, BitVec.zero_xor, BitVec.zero_ushiftRight, BitVec.setWidth_zero, BitVec.xor_zero]
  simp only [crcStepAvr, low_of_append, high_of_append]
  rw [input, top, byte_setWidth_eq_append h]
  simp only [BitVec.xor_assoc]

theorem crcStepAvr_zero : ∀ e : Byte, crcStepAvr 0#16 e = crcStepReflected 0#16 e := by
  decide +kernel

/-- Settles O11: both forms treat the high byte alike, and for the low byte there are 256 cases. -/
theorem reflectedStepIsByteWise : Obligations.ReflectedStepIsByteWise := by
  unfold Obligations.ReflectedStepIsByteWise
  intro c b
  rw [← high_append_low c, crcStepAvr_append, crcStepAvr_zero, ← crcStepReflected_append]

/-- A value's own low byte as input leaves its high byte. -/
theorem crcStepReflected_low (c : U16) : crcStepReflected c (c.setWidth 8) = c >>> 8 := by
  have zero : crcStepReflected 0#16 0#8 = 0#16 := by decide
  calc crcStepReflected c (c.setWidth 8)
      = crcStepReflected ((c >>> 8).setWidth 8 ++ c.setWidth 8) (c.setWidth 8) := by rw [high_append_low]
    _ = c >>> 8 := by
      rw [crcStepReflected_append, BitVec.xor_self, zero, BitVec.xor_zero, ← shiftRight_eq_high]

/-- Settles O13: the FCS bytes are VAL's own, low byte first, so each step only shifts. -/
theorem frameResidueIsZero : Obligations.FrameResidueIsZero := by
  unfold Obligations.FrameResidueIsZero
  intro p body hv hx ho
  have gone (c : U16) : c >>> 8 >>> 8 = 0 := by bv_omega
  have fcs : fcsOf p body = (crcFold p.crcVariant crcResetX body).val := by
    rw [fcsOf, hx]
    exact BitVec.xor_zero
  rw [frameBytes, crcFold_append, ho, fcs, hv]
  generalize crcFold .reflected8408 crcResetX body = x
  show crcStepReflected (crcStepReflected x.val (x.val.setWidth 8)) ((x.val >>> 8).setWidth 8) = 0
  rw [crcStepReflected_low, crcStepReflected_low, gone]

/-! ### The check at the receiver (R127, R128 item 3) -/

/-- The received FCS is a matter of the last two bytes (R173). -/
theorem fcsReceived_append_pair (o : FcsOrder) (bs : List Byte) (a b : Byte) :
    fcsReceived o (bs ++ [a, b]) = fcsReceived o [a, b] := by
  have first : (bs ++ [a, b]).getD (bs.length + 2 - 2) 0 = a := by simp
  have second : (bs ++ [a, b]).getD (bs.length + 2 - 1) 0 = b := by simp
  simp only [fcsReceived, List.length_append, List.length_cons, List.length_nil, Nat.zero_add, Nat.reduceAdd, first,
    second]
  rfl

theorem fcsReceived_pair_inj {o : FcsOrder} {a b a' b' : Byte} (h : fcsReceived o [a, b] = fcsReceived o [a', b']) :
    a = a' ∧ b = b' := by
  have parts {h l h' l' : Byte} (e : (h ++ l : U16) = h' ++ l') : h = h' ∧ l = l' :=
    ⟨by rw [← high_of_append h l, e, high_of_append], by rw [← low_of_append h l, e, low_of_append]⟩
  cases o with
  | lsbFirst => exact (parts h).symm
  | msbFirst => exact parts h

theorem fcsReceived_fcsBytes (o : FcsOrder) (f : U16) : fcsReceived o (fcsBytes o f) = f := by
  cases o <;> exact high_append_low f

/-- The FCS takes two bytes in either order. -/
theorem fcsBytes_pair (o : FcsOrder) (f : U16) : ∃ a b, fcsBytes o f = [a, b] := by
  cases o <;> exact ⟨_, _, rfl⟩

/-- What the receiver compares, for any body and two bytes after it (R127, R174). -/
theorem check_append_pair (p : Params) (body : List Byte) (a b : Byte) :
    fcsReceived p.fcsOrder (body ++ [a, b]) = (crcFold p.crcVariant crcResetX (body ++ [a, b])).h2 ^^^ p.crcXorout ↔
      fcsReceived p.fcsOrder [a, b] = fcsOf p body := by
  rw [fcsReceived_append_pair, crcFold_append_pair_h2, fcsOf]

theorem foldl_crcStep_injective (v : CrcVariant) (bs : List Byte) :
    Function.Injective fun c => bs.foldl (crcStep v) c := by
  induction bs with
  | nil => exact Function.injective_id
  | cons b bs ih => exact ih.comp (crcStep_left_injective v b)

/-- One changed byte changes the fold: the values differ after it, and no later byte brings them together. -/
theorem foldl_crcStep_set_ne (v : CrcVariant) {bs : List Byte} {i : Nat} {b b' : Byte} (hb : bs[i]? = some b)
    (hne : b' ≠ b) (c : U16) : (bs.set i b').foldl (crcStep v) c ≠ bs.foldl (crcStep v) c := by
  induction bs generalizing i c with
  | nil => cases hb
  | cons x bs ih =>
    cases i with
    | zero =>
      obtain rfl := Option.some.inj hb
      exact fun h => hne (crcStep_right_injective v c (foldl_crcStep_injective v bs h))
    | succ i => exact ih hb (crcStep v c x)

theorem fcsOf_set_ne (p : Params) {body : List Byte} {i : Nat} {b b' : Byte} (hb : body[i]? = some b)
    (hne : b' ≠ b) : fcsOf p (body.set i b') ≠ fcsOf p body := by
  rw [fcsOf, fcsOf, crcFold_val, crcFold_val]
  exact fun h => foldl_crcStep_set_ne p.crcVariant hb hne _ ((BitVec.xor_left_inj _).1 h)

/-- The check passes for the frame's own FCS bytes and for no other two. -/
theorem check_fcsBytes_iff (p : Params) (body : List Byte) (a b : Byte) :
    fcsReceived p.fcsOrder [a, b] = fcsOf p body ↔ fcsBytes p.fcsOrder (fcsOf p body) = [a, b] := by
  obtain ⟨a', b', hfcs⟩ := fcsBytes_pair p.fcsOrder (fcsOf p body)
  have own : fcsReceived p.fcsOrder [a', b'] = fcsOf p body := hfcs ▸ fcsReceived_fcsBytes _ _
  rw [hfcs]
  refine ⟨fun h => ?_, fun h => h ▸ own⟩
  obtain ⟨rfl, rfl⟩ := fcsReceived_pair_inj (own.trans h.symm)
  rfl

/-- Any one changed byte fails the check: in the body by its CRC, in the FCS by the bytes received. -/
theorem check_fails_of_set (p : Params) {body : List Byte} {i : Nat} {b b' : Byte}
    (hb : (frameBytes p body)[i]? = some b) (hne : b' ≠ b) :
    fcsReceived p.fcsOrder ((frameBytes p body).set i b') ≠
      (crcFold p.crcVariant crcResetX ((frameBytes p body).set i b')).h2 ^^^ p.crcXorout := by
  obtain ⟨x, y, hfcs⟩ := fcsBytes_pair p.fcsOrder (fcsOf p body)
  have own := (check_fcsBytes_iff p body x y).2 hfcs
  rw [frameBytes, hfcs] at hb ⊢
  by_cases hi : i < body.length
  · rw [List.getElem?_append_left hi] at hb
    rw [List.set_append_left _ _ hi, Ne, check_append_pair, own]
    exact (fcsOf_set_ne p hb hne).symm
  · rw [List.getElem?_append_right (Nat.not_lt.1 hi)] at hb
    rw [List.set_append_right _ _ (Nat.not_lt.1 hi)]
    generalize i - body.length = j at hb ⊢
    obtain _ | _ | j := j
    · obtain rfl := Option.some.inj hb
      rw [List.set_cons_zero, Ne, check_append_pair, ← own]
      exact fun h => hne (fcsReceived_pair_inj h).1
    · obtain rfl := Option.some.inj hb
      rw [List.set_cons_succ, List.set_cons_zero, Ne, check_append_pair, ← own]
      exact fun h => hne (fcsReceived_pair_inj h).2
    · cases hb

theorem frame_passes_check (p : Params) (body : List Byte) :
    fcsReceived p.fcsOrder (frameBytes p body) =
      (crcFold p.crcVariant crcResetX (frameBytes p body)).h2 ^^^ p.crcXorout := by
  obtain ⟨x, y, hfcs⟩ := fcsBytes_pair p.fcsOrder (fcsOf p body)
  rw [frameBytes, hfcs, check_append_pair, check_fcsBytes_iff, hfcs]

theorem xor_single_bit_ne : ∀ (b : Byte) (k : Fin 8), b ^^^ (1#8 <<< k.val) ≠ b := by
  decide +kernel

/-- Settles O14: a flipped bit is a changed byte. -/
theorem singleBitErrorsDetected : Obligations.SingleBitErrorsDetected := by
  unfold Obligations.SingleBitErrorsDetected
  intro p body
  exact ⟨frame_passes_check p body, fun i k b hb hk => check_fails_of_set p hb (xor_single_bit_ne b ⟨k, hk⟩)⟩

/-! ### The commands on CRC_H (R129 to R132) -/

theorem low_byte_eq_extract (v : U16) : v.setWidth 8 = v.extractLsb' 0 8 :=
  BitVec.setWidth_eq_extractLsb' (by decide)

theorem high_byte_eq_extract (v : U16) : (v >>> 8).setWidth 8 = v.extractLsb' 8 8 :=
  BitVec.setWidth_ushiftRight_eq_extractLsb

theorem lowFirst_eq_extract (v : U16) : lowFirst v = [v.extractLsb' 0 8, v.extractLsb' 8 8] := by
  rw [lowFirst, low_byte_eq_extract, high_byte_eq_extract]

/-- Settles O15: each command is its one update and its one response; the check values are computed. -/
theorem crcCommandResults : Obligations.CrcCommandResults := by
  unfold Obligations.CrcCommandResults
  refine ⟨fun rest => ⟨rfl, fun _ => rfl, rfl, rfl⟩, fun _ => rfl, fun _ _ => rfl, fun s => ?get, fun s => ?getLast,
    by decide +kernel, by decide +kernel, by decide +kernel, by decide +kernel⟩
  case get =>
    rw [exec, execCrcGet, lowFirst_eq_extract]
    rfl
  case getLast =>
    rw [exec, execCrcGetLast, lowFirst_eq_extract]
    rfl

end Sys2Proof.Machine

/-!
SUPPORT. The line codec from flag to flag (41_frame_codec.md R142, R149): what emit_frame puts on the line, and what a
block that receives it holds before and after the closing flag.
-/

namespace Sys2Proof.Machine

/-! ### The emitted line bytes -/

/-- R140: stuffing takes the flag out of the data. -/
theorem flagByte_not_mem_stuffByte : ∀ b : Byte, flagByte ∉ stuffByte b := by
  decide +kernel

theorem stuffByte_length_le (b : Byte) : (stuffByte b).length ≤ 2 := by
  rw [stuffByte]
  split_ifs <;> simp

theorem flagByte_not_mem_stuffed (bs : List Byte) : flagByte ∉ bs.flatMap stuffByte := by
  simp only [List.mem_flatMap, not_exists, not_and]
  exact fun b _ => flagByte_not_mem_stuffByte b

theorem stuffed_length_le (bs : List Byte) : (bs.flatMap stuffByte).length ≤ 2 * bs.length := by
  induction bs with
  | nil => simp
  | cons b bs ih =>
    have := stuffByte_length_le b
    simp only [List.flatMap_cons, List.length_append, List.length_cons]
    omega

theorem fcsBytes_length (o : FcsOrder) (f : U16) : (fcsBytes o f).length = 2 := by
  cases o <;> rfl

@[simp] theorem frameBytes_length (p : Params) (body : List Byte) : (frameBytes p body).length = body.length + 2 := by
  rw [frameBytes, List.length_append, fcsBytes_length]

theorem fcsOf_eq_foldl (p : Params) (body : List Byte) :
    fcsOf p body = body.foldl (crcStep p.crcVariant) 0xFFFF ^^^ p.crcXorout := by
  rw [fcsOf, crcFold_val]
  rfl

theorem fcsBytes_eq_extract (o : FcsOrder) (f : U16) : fcsBytes o f = match o with
    | .lsbFirst => [f.extractLsb' 0 8, f.extractLsb' 8 8]
    | .msbFirst => [f.extractLsb' 8 8, f.extractLsb' 0 8] := by
  have low := low_byte_eq_extract f
  have high := high_byte_eq_extract f
  cases o with
  | lsbFirst => exact congrArg₂ (fun a b => [a, b]) low high
  | msbFirst => exact congrArg₂ (fun a b => [a, b]) high low

/-- Settles O25: `emitFrame_eq` with the FCS and the stuffing written out, and what stuffing does to flags and length. -/
theorem emittedFrameShape : Obligations.EmittedFrameShape := by
  unfold Obligations.EmittedFrameShape
  intro s ctrl payload body f fb inner
  have fcs : fcsBytes s.cfg.fcsOrder (fcsOf s.cfg body) = fb := by
    rw [fcsOf_eq_foldl]
    exact fcsBytes_eq_extract s.cfg.fcsOrder f
  have stuffed : inner = (frameBytes s.cfg body).flatMap stuffByte := by
    rw [frameBytes, fcs]
    rfl
  refine ⟨?_, ?_, ?_⟩
  · rw [stuffed, emitFrame_eq]
    rfl
  · rw [stuffed]
    exact flagByte_not_mem_stuffed _
  · have := stuffed_length_le (frameBytes s.cfg body)
    rw [frameBytes_length] at this
    rw [stuffed]
    exact this

/-! ### Several bytes in RX_BUF -/

/-- Bytes written one after another from an address on. -/
def Memory.writeAll : Memory → Nat → List Byte → Memory
  | m, _, [] => m
  | m, a, b :: bs => Memory.writeAll (Memory.write m a b) (a + 1) bs

theorem Memory.read_writeAll (m : Memory) (a : Nat) (bs : List Byte) (x : Nat) :
    Memory.read (Memory.writeAll m a bs) x =
      if a ≤ x ∧ x < a + bs.length then bs[x - a]? else Memory.read m x := by
  induction bs generalizing m a with
  | nil => rw [Memory.writeAll, if_neg (by simp)]
  | cons b bs ih =>
    rw [Memory.writeAll, ih, Memory.read_write, List.length_cons]
    by_cases hx : x = a
    · subst hx
      rw [if_neg (by omega), if_pos rfl, if_pos (by omega), Nat.sub_self]
      rfl
    · by_cases hin : a ≤ x ∧ x < a + (bs.length + 1)
      · rw [if_pos (by omega), if_pos hin, ← List.getElem?_cons_succ (a := b), show x - (a + 1) + 1 = x - a by omega]
      · rw [if_neg (by omega), if_neg hx, if_neg hin]

theorem Memory.read_writeAll_zero (m : Memory) (bs : List Byte) (x : Nat) :
    Memory.read (Memory.writeAll m 0 bs) x = if x < bs.length then bs[x]? else Memory.read m x := by
  rw [Memory.read_writeAll]
  simp

/-! ### Runs of line bytes -/

theorem runAll_append {is js : List Instr} {s t : State} (h : runAll is s = .next t) :
    runAll (is ++ js) s = runAll js t := by
  induction is generalizing s with
  | nil => cases h; rfl
  | cons i is ih =>
    rw [List.cons_append]
    simp only [runAll] at h ⊢
    cases hexec : exec i s with
    | next u =>
      simp only [hexec] at h
      exact ih h
    | fault f => simp only [hexec, reduceCtorEq] at h
    | refused r => simp only [hexec, reduceCtorEq] at h

theorem runAll_cons {i : Instr} {is : List Instr} {s t : State} (h : exec i s = .next t) :
    runAll (i :: is) s = runAll is t := by
  simp only [runAll, h]

/-- A run of one instruction is that instruction. -/
theorem runAll_singleton {i : Instr} {s t : State} (h : exec i s = .next t) : runAll [i] s = .next t :=
  runAll_cons h

/-- The state after bs has arrived inside a frame with room for it, stuffed into n line bytes. -/
def rxFilled (bs : List Byte) (n : Nat) (s : State) : State := { s with
  rxBuf := Memory.writeAll s.rxBuf s.rxLen bs
  rxLen := s.rxLen + bs.length
  crcRx := crcFold s.cfg.crcVariant s.crcRx bs
  out := s.out ++ List.replicate n (.resp .ok []) }

/-- An escaped byte with room for it (R146, R148). -/
theorem rxEscaping_room {s : State} {b : Byte} (he : b ≠ escByte) (hroom : s.rxLen < s.cfg.maxFrame) :
    rxEscaping b s = { rxFilled [b ^^^ escMask] 0 s with rxState := .inFrame } := by
  rw [rxEscaping_data he, rxStore_room _ hroom]
  simp [rxFilled, Memory.writeAll]

/-- The line bytes of one stuffed byte store that byte: a plain one at once, the flag and the escape through Escaping. -/
theorem runAll_stuffByte {s : State} {b : Byte} (hs : s.rxState = .inFrame) (hd : s.dispPend = false)
    (hroom : s.rxLen < s.cfg.maxFrame) :
    runAll ((stuffByte b).map .rxByte) s = .next (rxFilled [b] (stuffByte b).length s) := by
  by_cases hplain : b = flagByte ∨ b = escByte
  · have escaped : stuffByte b = [escByte, b ^^^ escMask] := if_pos hplain
    have notEsc : b ^^^ escMask ≠ escByte := by obtain rfl | rfl := hplain <;> decide
    have back : b ^^^ escMask ^^^ escMask = b := by rw [BitVec.xor_assoc, BitVec.xor_self, BitVec.xor_zero]
    have first := exec_rxByte_inFrame hs hd (rxInFrame_esc s)
    have second := rxEscaping_room (s := { s with rxState := .escaping, out := s.out ++ [.resp .ok []] }) notEsc hroom
    have stored := runAll_singleton (exec_rxByte_escaping rfl (s := { s with rxState := .escaping, out := _ }) hd second)
    rw [escaped]
    refine (runAll_cons first).trans (stored.trans ?_)
    simp [rxFilled, hs, back]
  · obtain ⟨notFlag, notEsc⟩ := not_or.1 hplain
    have stored := rxInFrame_data (s := s) notEsc notFlag
    rw [rxStore_room b hroom] at stored
    rw [stuffByte_plain notFlag notEsc]
    exact runAll_singleton (exec_rxByte_inFrame hs hd stored)

theorem Memory.writeAll_append (m : Memory) (a : Nat) (as bs : List Byte) :
    Memory.writeAll m a (as ++ bs) = Memory.writeAll (Memory.writeAll m a as) (a + as.length) bs := by
  induction as generalizing m a with
  | nil => rfl
  | cons b as ih => rw [List.cons_append, Memory.writeAll, ih, Memory.writeAll, List.length_cons, Nat.add_right_comm]; rfl

theorem rxFilled_rxFilled (as bs : List Byte) (m n : Nat) (s : State) :
    rxFilled bs n (rxFilled as m s) = rxFilled (as ++ bs) (m + n) s := by
  simp only [rxFilled, Memory.writeAll_append, crcFold_append, List.length_append, List.append_assoc,
    List.replicate_append_replicate, Nat.add_assoc]

/-- R142 up to the closing flag. -/
theorem runAll_stuffed (bs : List Byte) {s : State} (hs : s.rxState = .inFrame) (hd : s.dispPend = false)
    (hroom : s.rxLen + bs.length ≤ s.cfg.maxFrame) :
    runAll ((bs.flatMap stuffByte).map .rxByte) s = .next (rxFilled bs (bs.flatMap stuffByte).length s) := by
  induction bs generalizing s with
  | nil => simp [runAll, rxFilled, Memory.writeAll]
  | cons b bs ih =>
    rw [List.length_cons] at hroom
    have first := runAll_stuffByte (b := b) hs hd (by omega)
    have rest := ih (s := rxFilled [b] (stuffByte b).length s) hs hd
      (show s.rxLen + 1 + bs.length ≤ s.cfg.maxFrame by omega)
    rw [List.flatMap_cons, List.map_append, runAll_append first, rest, rxFilled_rxFilled, List.length_append]
    rfl

/-- The state between the flags: a frame opened in Idle and bs arrived in it, on n line bytes. -/
def rxOpened (bs : List Byte) (n : Nat) (s : State) : State := { s with
  rxState := .inFrame
  rxBuf := Memory.writeAll s.rxBuf 0 bs
  rxLen := bs.length
  rxOvr := false
  crcRx := crcFold s.cfg.crcVariant crcResetX bs
  out := s.out ++ List.replicate n (.resp .ok []) }

/-- R142 up to the closing flag, from Idle. -/
theorem runAll_flag_stuffed (bs : List Byte) {s : State} (hs : s.rxState = .idle) (hd : s.dispPend = false)
    (hroom : bs.length ≤ s.cfg.maxFrame) :
    runAll ((flagByte :: bs.flatMap stuffByte).map .rxByte) s =
      .next (rxOpened bs (flagByte :: bs.flatMap stuffByte).length s) := by
  have opened := exec_rxByte_idle hs hd (rxIdle_flag s)
  have rest := runAll_stuffed bs (s := { rxOpen s with rxState := .inFrame, out := s.out ++ [.resp .ok []] }) rfl hd
    (show 0 + bs.length ≤ s.cfg.maxFrame by omega)
  refine (runAll_cons opened).trans (rest.trans ?_)
  simp [rxFilled, rxOpened, rxOpen, List.replicate_succ]

/-- The frame's bytes as frame_complete reads them. -/
theorem rxBytes_rxOpened (bs : List Byte) (n : Nat) (s : State) :
    (List.range bs.length).map (rxRead (rxOpened bs n s)) = bs := by
  refine List.ext_getElem (by simp) fun i _ hi => ?_
  simp [rxRead, rxOpened, Memory.read_writeAll_zero, hi]

/-! ### The closing flag -/

/-- A completed frame, dropped or run, leaves what the receive path holds. -/
theorem frameComplete_sameRx {s t : State} (h : frameComplete s = .ok t) : SameRx s t := by
  obtain ⟨-, rfl⟩ | ⟨-, -, rfl⟩ | ⟨-, -, -, rfl, -⟩ | ⟨-, -, -, rfl, -⟩ := frameComplete_cases h
  · constructor <;> rfl
  · constructor <;> rfl
  · constructor <;> rfl
  · exact classify_sameRx _ _ s

/-- Settles O23: up to the closing flag by `runAll_flag_stuffed`; the flag reopens an empty frame, and completing any other
leaves the receive path alone. -/
theorem stuffedBytesAreRecovered : Obligations.StuffedBytesAreRecovered := by
  unfold Obligations.StuffedBytesAreRecovered
  intro s d hs hd hroom
  have opened := runAll_flag_stuffed d hs hd hroom
  generalize (flagByte :: d.flatMap stuffByte).length = n at opened
  have close {t : State} (h : exec (.rxByte flagByte) (rxOpened d n s) = .next t) :
      runAll ((flagByte :: (d.flatMap stuffByte ++ [flagByte])).map .rxByte) s = .next t := by
    rw [← List.cons_append, List.map_append, runAll_append opened]
    exact runAll_singleton h
  by_cases hempty : d = []
  · subst hempty
    have reopened := (rxInFrame_flag (rxOpened [] n s)).trans (if_neg (Nat.lt_irrefl 0))
    exact ⟨_, close (exec_rxByte_inFrame rfl hd reopened), rfl, fun i h => absurd h (Nat.not_lt_zero i), rfl⟩
  · have filled : 0 < (rxOpened d n s).rxLen := List.length_pos_of_ne_nil hempty
    obtain ⟨t, ht⟩ := frameComplete_ok (s := { rxOpened d n s with rxState := .idle }) hroom
    have same := frameComplete_sameRx ht
    refine ⟨_, close (exec_rxByte_closingFlag rfl hd filled ht), same.rxLen, fun i h => ?_, ?_⟩
    · calc rxRead { t with out := t.out ++ [.resp .ok []] } i
          = rxRead (rxOpened d n s) i := rxRead_congr same.rxBuf i
        _ = d[i] := by simp [rxRead, rxOpened, Memory.read_writeAll_zero, h]
    · rw [if_neg hempty]
      exact same.rxState

/-- R170 to R176 of a frame that passes, by the checks as they stand in RX_BUF. -/
theorem exec_closingFlag_passes {s : State} (hs : s.rxState = .inFrame) (hd : s.dispPend = false)
    (hovr : s.rxOvr = false) (hlong : 4 ≤ s.rxLen) (hroom : s.rxLen ≤ s.cfg.maxFrame)
    (hfcs : bufferedFcs s = s.crcRx.h2 ^^^ s.cfg.crcXorout) :
    ∃ t, exec (bufferedFrame s) { s with rxState := .idle } = .next t ∧
      exec (.rxByte flagByte) s = .next { t with out := t.out ++ [.resp .ok []] } := by
  have passes := frameComplete_good (s := { s with rxState := .idle }) hovr hlong hroom
    ((fcsReceived_rxBytes (s := { s with rxState := .idle }) hlong).trans hfcs)
  exact ⟨_, exec_decodeFrame _ _ _, exec_rxByte_closingFlag hs hd (Nat.lt_of_lt_of_le (by decide) hlong) passes⟩

/-- Settles O22. -/
theorem goodFrameRunsItsClass : Obligations.GoodFrameRunsItsClass := by
  unfold Obligations.GoodFrameRunsItsClass
  exact fun _ => exec_closingFlag_passes

/-- The buffered frame, by the frame's bytes as a list. -/
theorem bufferedFrame_eq {s : State} (hlong : 4 ≤ s.rxLen) :
    bufferedFrame s = decodeFrame (frameCtrl ((List.range s.rxLen).map (rxRead s)))
      (framePayload ((List.range s.rxLen).map (rxRead s))) := by
  rw [frameCtrl_rxBytes hlong, framePayload_rxBytes, bufferedFrame]

theorem framePayload_frameBytes (p : Params) (addr ctrl : Byte) (payload : Packet) :
    framePayload (frameBytes p (addr :: ctrl :: payload)) = payload := by
  rw [framePayload, frameBytes_length, Nat.add_sub_cancel, frameBytes, List.take_left]
  rfl

theorem frameBytes_congr {p q : Params} (hv : p.crcVariant = q.crcVariant) (hx : p.crcXorout = q.crcXorout)
    (ho : p.fcsOrder = q.fcsOrder) (body : List Byte) : frameBytes p body = frameBytes q body := by
  rw [frameBytes, frameBytes, fcsOf, fcsOf, hv, hx, ho]

/-- Settles O24: up to the closing flag by `runAll_flag_stuffed`; the frame passes the check (`frame_passes_check`), so the
flag runs the class of the bytes in RX_BUF, which are the frame's. -/
theorem emittedFrameIsReceived : Obligations.EmittedFrameIsReceived := by
  unfold Obligations.EmittedFrameIsReceived
  intro p s addr ctrl payload hv hx ho hs hd hroom body
  have bytes : frameBytes p body = frameBytes s.cfg body := frameBytes_congr hv hx ho body
  have len : (frameBytes s.cfg body).length = payload.length + 4 := frameBytes_length _ _
  have fits : (frameBytes s.cfg body).length ≤ s.cfg.maxFrame := len ▸ hroom
  have line : frameLine p body = (flagByte :: (frameBytes s.cfg body).flatMap stuffByte) ++ [flagByte] := by
    rw [frameLine, bytes, List.cons_append]
  have opened := runAll_flag_stuffed (frameBytes s.cfg body) hs hd fits
  rw [line, bytes, List.length_append, List.length_singleton, Nat.add_sub_cancel]
  generalize (flagByte :: (frameBytes s.cfg body).flatMap stuffByte).length = n at opened ⊢
  have held := rxBytes_rxOpened (frameBytes s.cfg body) n s
  have long : 4 ≤ (rxOpened (frameBytes s.cfg body) n s).rxLen :=
    (Nat.le_add_left 4 payload.length).trans_eq len.symm
  have fcs : bufferedFcs (rxOpened (frameBytes s.cfg body) n s) =
      (rxOpened (frameBytes s.cfg body) n s).crcRx.h2 ^^^ s.cfg.crcXorout := by
    rw [← fcsReceived_rxBytes long]
    exact (congrArg _ held).trans (frame_passes_check s.cfg body)
  have runs : bufferedFrame (rxOpened (frameBytes s.cfg body) n s) = decodeFrame ctrl payload := by
    rw [bufferedFrame_eq long]
    exact (congrArg (fun bs => decodeFrame (frameCtrl bs) (framePayload bs)) held).trans
      (congrArg _ (framePayload_frameBytes s.cfg addr ctrl payload))
  obtain ⟨t, hclass, hflag⟩ := exec_closingFlag_passes (s := rxOpened (frameBytes s.cfg body) n s) rfl hd rfl long fits fcs
  refine ⟨Memory.writeAll s.rxBuf 0 (frameBytes s.cfg body), t, fun a => ?_, ?_, ?_⟩
  · rw [← len]
    exact Memory.read_writeAll_zero s.rxBuf (frameBytes s.cfg body) a
  · rw [← runs, ← hclass, ← len, ← hs]
    rfl
  · rw [List.map_append, runAll_append opened]
    exact runAll_singleton hflag

end Sys2Proof.Machine

/-!
SUPPORT. Whole-machine facts that need no induction over the window: BUSY during a delivery (70_reset_and_hazards.md R336),
ignored S-frames (44_arq_window.md R232), what SOFT_RESET leaves (46_control.md R281) and the invariant at reset.
-/

namespace Sys2Proof.Machine

/-! ### BUSY -/

theorem exec_rxByte_busy {s : State} (hd : s.dispPend = true) (b : Byte) :
    exec (.rxByte b) s = .next (respond .busy [] s) := if_pos hd

theorem exec_tick_busy {s : State} (hd : s.dispPend = true) : exec .tick s = .next (respond .busy [] s) := if_pos hd

/-- R302: the commands that may be refused with BUSY are R336's four. -/
theorem statusOf_ne_busy {i : Instr} (s : State) (hrx : ∀ b, i ≠ .rxByte b)
    (hi : i ∉ [Instr.tick, Instr.connect, Instr.disconnect]) : statusOf s i ≠ some .busy := by
  cases i with
  | rxByte b => exact absurd rfl (hrx b)
  | tick | connect | disconnect => exact absurd hi (by simp)
  | readReg | submit | dispatchDone =>
    simp only [statusOf]
    split_ifs <;> simp
  | _ => simp [statusOf]

/-- A frame class is the only instruction without a status. -/
theorem exists_statusOf {i : Instr} (s : State) (hi : i.isFrame = false) : ∃ st, statusOf s i = some st := by
  cases i with
  | iFrame | rr | rnr | rej | srej | snrm | ua | dm | disc | ui | uUnknown => cases hi
  | _ => exact ⟨_, rfl⟩

/-- Settles O20: the four refusals, and for any other command R302's status, which its response ends with. -/
theorem busyWhileDispatching : Obligations.BusyWhileDispatching := by
  unfold Obligations.BusyWhileDispatching
  refine fun s hd => ⟨exec_rxByte_busy hd, ?refused, ?others⟩
  case refused =>
    simp only [List.forall_mem_cons]
    exact ⟨exec_tick_busy hd, execConnect_busy hd, execDisconnect_busy hd, List.forall_mem_nil _⟩
  case others =>
    intro i t hcommand hrx hi hexec
    obtain ⟨st, hst⟩ := exists_statusOf s hcommand
    obtain ⟨⟨mid, data, hout, -⟩, -⟩ := statusOfEveryCommand i s t st hexec hst
    rw [hout, List.getLast?_concat]
    rintro ⟨⟩
    exact statusOf_ne_busy s hrx hi hst

/-! ### Ignored S-frames -/

section
variable {s : State} {nr : U3}

theorem guardS_notUp (act : State → State) (hdown : s.link ≠ .up) : guardS nr act s = count .notUpDrop s := if_pos hdown

theorem guardS_invalid (act : State → State) (hup : s.link = .up) (hnr : nrValid s nr = false) :
    guardS nr act s = count .badNr s := by
  rw [guardS, if_neg (not_not_intro hup), if_neg (ne_true_of_eq_false hnr)]

/-- The four S-frames share R232's checks; what they do with a valid N(R) differs. -/
theorem exec_sFrame {i : Instr} {pf : Bool} {info : Packet} (s : State)
    (hi : i ∈ [Instr.rr nr pf info, Instr.rnr nr pf info, Instr.rej nr pf info, Instr.srej nr pf info]) :
    ∃ act, exec i s = .next (guardS nr act s) := by
  simp only [List.mem_cons, List.not_mem_nil, or_false] at hi
  obtain rfl | rfl | rfl | rfl := hi
  · exact ⟨_, rfl⟩
  · exact ⟨_, rfl⟩
  · exact ⟨_, rfl⟩
  · exact ⟨_, rfl⟩

end

/-- Settles O40: the checks come before what the function does. -/
theorem sFrameIgnored : Obligations.SFrameIgnored := by
  unfold Obligations.SFrameIgnored
  intro s nr pf info i hi
  obtain ⟨act, hexec⟩ := exec_sFrame s hi
  rw [hexec]
  refine ⟨fun hdown => ?notUp, fun hup hbeyond => ?invalid⟩
  case notUp =>
    rw [guardS_notUp act hdown]
    rfl
  case invalid =>
    rw [guardS_invalid act hup (decide_eq_false hbeyond.not_ge)]
    rfl

/-! ### SOFT_RESET and the state registers -/

/-- The numbers of R34's state registers and counters. -/
def stateRegisters : List Byte :=
  [0x00, 0x01, 0x02, 0x03, 0x04, 0x05, 0x06, 0x07, 0x08, 0x09, 0x0A, 0x0B, 0x0C,
   0x10, 0x11, 0x12, 0x13, 0x14, 0x15, 0x16, 0x17]

theorem mem_stateRegisters : ∀ b : Byte, b ≤ 0x0C ∨ (0x10 ≤ b ∧ b ≤ 0x17) → b ∈ stateRegisters := by
  decide +kernel

theorem winCount_resetWith (p : Params) : winCount (State.resetWith p) = 0 := by
  simp [winCount, State.resetWith]

/-- A state register reads no parameter, so after SOFT_RESET it is a constant. -/
theorem regValue_softReset (s : State) : ∀ b ∈ stateRegisters, regValue (softReset s) b = some 0 := by
  have count : regField 3 (winCount (softReset s)) = 0 := congrArg (regField 3) (winCount_resetWith s.cfg)
  have slots : winOccReg (softReset s) = 0 := rfl
  simp only [stateRegisters, List.forall_mem_cons]
  exact ⟨rfl, rfl, rfl, rfl, rfl, congrArg some count, congrArg some slots, rfl, rfl, rfl, rfl, rfl, rfl,
    rfl, rfl, rfl, rfl, rfl, rfl, rfl, rfl, List.forall_mem_nil _⟩

theorem regValue_respond (st : Status) (data : List Byte) (s : State) (b : Byte) :
    regValue (respond st data s) b = regValue s b := rfl

/-- Settles O52. -/
theorem softResetResult : Obligations.SoftResetResult := by
  unfold Obligations.SoftResetResult
  refine ⟨fun _ => rfl, fun s => ⟨_, rfl, rfl, fun b hb => ?zero⟩⟩
  case zero =>
    have value := regValue_softReset s b (mem_stateRegisters b hb)
    exact exec_readReg_of_some ((regValue_respond .ok [] (softReset s) b).trans value)

/-! ### The invariant at reset -/

theorem resetWith_rxInv (p : Params) : (State.resetWith p).RxInv where
  canonical := rfl
  addresses := List.forall_mem_nil _
  length := Nat.zero_le _
  written := fun _ h => absurd h (Nat.not_lt_zero _)
  crc := rfl
  overrun := nofun

theorem resetWith_windowInv (p : Params) : (State.resetWith p).WindowInv where
  txSeq := rfl
  count := (winCount_resetWith p).trans_le (Nat.zero_le _)
  slots := fun i => by
    have empty : slotAt (State.resetWith p).winSlot i = none := slotAt_empty i
    rw [empty, winCount_resetWith]
    exact ⟨nofun, fun h => absurd h (Nat.not_lt_zero _)⟩
  slotLength := fun i q hq => by
    have empty : slotAt (State.resetWith p).winSlot i = none := slotAt_empty i
    rw [empty] at hq
    cases hq
  fifo := Nat.zero_le _
  fifoLength := List.forall_mem_nil _

theorem resetWith_timerInv (p : Params) : (State.resetWith p).TimerInv where
  lt := nofun
  rt := nofun
  ltCount := ⟨nofun, fun h => absurd rfl h⟩
  rtCount := ⟨nofun, fun h => absurd rfl h⟩

/-- Only the ranges of the parameters are asked for; nothing is received, queued, in flight or armed. -/
theorem resetWith_inv {p : Params} (hp : p.InRange) : (State.resetWith p).Inv where
  params := hp
  rx := resetWith_rxInv p
  window := resetWith_windowInv p
  timers := resetWith_timerInv p
  handshake := nofun
  drained := nofun

/-- Settles O55. -/
theorem resetSatisfiesInvariant : Obligations.ResetSatisfiesInvariant := by
  unfold Obligations.ResetSatisfiesInvariant
  exact ⟨resetWith_inv (by decide), fun _ => resetWith_inv⟩

end Sys2Proof.Machine

/-!
SUPPORT. TICK (45_timers.md R262, R265): a tick that expires nothing, and a timer's whole run.
-/

namespace Sys2Proof.Machine

section
variable {s : State}

theorem exec_tick_noTimer (hd : s.dispPend = false) (habsent : s.cfg.timerPresent = false) :
    exec .tick s = .next (respond .ok [] s) :=
  (if_neg (ne_true_of_eq_false hd)).trans (if_neg (ne_true_of_eq_false habsent))

/-- A timer's tick that is not its last. -/
def Timer.counted (t : Timer) : Timer := if t.armed = true then { armed := true, cnt := t.cnt - 1 } else t

theorem tickLT_counts (h : s.lt.armed = true → s.lt.cnt ≠ 1) : tickLT s = { s with lt := s.lt.counted } := by
  cases harmed : s.lt.armed with
  | false => rw [tickLT_idle harmed, Timer.counted, if_neg (ne_true_of_eq_false harmed)]
  | true =>
    have more : s.lt.cnt - 1 ≠ 0 := fun hzero => h harmed (BitVec.sub_eq_iff_eq_add.1 hzero)
    rw [tickLT, if_pos harmed, if_neg more, Timer.counted, if_pos harmed]

theorem tickRT_counts (h : s.rt.armed = true → s.rt.cnt ≠ 1) : tickRT s = { s with rt := s.rt.counted } := by
  cases harmed : s.rt.armed with
  | false => rw [tickRT_idle harmed, Timer.counted, if_neg (ne_true_of_eq_false harmed)]
  | true =>
    have more : s.rt.cnt - 1 ≠ 0 := fun hzero => h harmed (BitVec.sub_eq_iff_eq_add.1 hzero)
    rw [tickRT, if_pos harmed, if_neg more, Timer.counted, if_pos harmed]

theorem exec_tick_counts (hd : s.dispPend = false) (hpresent : s.cfg.timerPresent = true)
    (hlt : s.lt.armed = true → s.lt.cnt ≠ 1) (hrt : s.rt.armed = true → s.rt.cnt ≠ 1) :
    exec .tick s = .next { s with lt := s.lt.counted, rt := s.rt.counted, out := s.out ++ [.resp .ok []] } := by
  rw [exec_tick_serviced hd hpresent, tickLT_counts hlt, tickRT_counts (s := { s with lt := s.lt.counted }) hrt]
  rfl

end

/-- Settles O46. -/
theorem tickCountsDown : Obligations.TickCountsDown := by
  unfold Obligations.TickCountsDown
  exact fun _ hd => ⟨exec_tick_noTimer hd, exec_tick_counts hd⟩

/-! ### A timer's whole run -/

theorem Timer.counted_idle {t : Timer} (h : t.armed = false) : t.counted = t := if_neg (ne_true_of_eq_false h)

section
variable {armed : U16 → List Output → State} {n : U16} {out : List Output}

/-- A state that shows an armed timer's count and the output, and that a tick before the last takes to the next count. -/
def CountsDown (armed : U16 → List Output → State) : Prop :=
  ∀ n out, n ≠ 1 → exec .tick (armed n out) = .next (armed (n - 1) (out ++ [.resp .ok []]))

theorem CountsDown.runAll_ticks (h : CountsDown armed) {k : Nat} (hk : k < n.toNat) :
    runAll (List.replicate k .tick) (armed n out) =
      .next (armed (n - BitVec.ofNat 16 k) (out ++ List.replicate k (.resp .ok []))) := by
  induction k generalizing n out with
  | zero => simp [runAll]
  | succ k ih =>
    have notLast : n ≠ 1 := by rintro rfl; simp at hk
    have next : n - 1 - BitVec.ofNat 16 k = n - BitVec.ofNat 16 (k + 1) := by bv_omega
    rw [List.replicate_succ, runAll_cons (h n out notLast), ih (by bv_omega), next, List.append_assoc]
    rfl

theorem CountsDown.runAll_lastTick (h : CountsDown armed) (hn : n ≠ 0) {t : State}
    (hlast : exec .tick (armed 1 (out ++ List.replicate (n.toNat - 1) (.resp .ok []))) = .next t) :
    runAll (List.replicate n.toNat .tick) (armed n out) = .next t := by
  have pos : 0 < n.toNat := by bv_omega
  have one : n - BitVec.ofNat 16 (n.toNat - 1) = 1 := by bv_omega
  have counted := h.runAll_ticks (out := out) (Nat.sub_lt pos Nat.one_pos)
  rw [one] at counted
  rw [show n.toNat = n.toNat - 1 + 1 by omega, List.replicate_succ', runAll_append counted]
  exact runAll_singleton hlast

end

theorem countsDown_lt {s : State} (hd : s.dispPend = false) (hpresent : s.cfg.timerPresent = true)
    (hidle : s.rt.armed = false) :
    CountsDown fun n out => { s with lt := { armed := true, cnt := n }, out := out } := by
  intro n out hn
  refine (exec_tick_counts (s := { s with lt := { armed := true, cnt := n }, out := out }) hd hpresent (fun _ => hn)
    fun h => absurd h (ne_true_of_eq_false hidle)).trans ?_
  simp only [Timer.counted_idle hidle]
  rfl

theorem countsDown_rt {s : State} (hd : s.dispPend = false) (hpresent : s.cfg.timerPresent = true)
    (hidle : s.lt.armed = false) :
    CountsDown fun n out => { s with rt := { armed := true, cnt := n }, out := out } := by
  intro n out hn
  refine (exec_tick_counts (s := { s with rt := { armed := true, cnt := n }, out := out }) hd hpresent
    (fun h => absurd h (ne_true_of_eq_false hidle)) fun _ => hn).trans ?_
  simp only [Timer.counted_idle hidle]
  rfl

/-- Settles O49: n - 1 ticks count down to 1, and the next one is O47's or O48's. -/
theorem timersExpireOnNthTick : Obligations.TimersExpireOnNthTick := by
  unfold Obligations.TimersExpireOnNthTick
  refine fun s n hd hpresent hn => ⟨fun hlt hidle hl => ?link, fun p hrt hidle hup hwaiting hslot => ?retransmit⟩
  case link =>
    have counts := countsDown_lt hd hpresent hidle
    have start : s = { s with lt := { armed := true, cnt := n }, out := s.out } := by rw [← hlt]
    rw [start]
    refine ⟨fun k hk => counts.runAll_ticks hk, counts.runAll_lastTick hn ?_⟩
    exact (linkTimerExpiry { s with lt := { armed := true, cnt := 1 }, out := _ } hd hpresent rfl hidle).1 hl
  case retransmit =>
    have counts := countsDown_rt hd hpresent hidle
    have start : s = { s with rt := { armed := true, cnt := n }, out := s.out } := by rw [← hrt]
    rw [start]
    refine ⟨fun k hk => counts.runAll_ticks hk, counts.runAll_lastTick hn ?_⟩
    exact (retransmitTimerExpiry { s with rt := { armed := true, cnt := 1 }, out := _ } hd hpresent rfl hidle).1 p hup hwaiting hslot

end Sys2Proof.Machine

/-!
SUPPORT. Who writes which element (10_state.md R21, R22, R33; 20_memory.md R60): a frame class is one run of `classify`, and
what one instruction may do to the receive path, the output and the counters.
-/

namespace Sys2Proof.Machine

/-! ### Frame classes as `classify` -/

/-- Every frame class is what some control byte and payload run (42_frame_parser.md R176); the unknown U-frames share one
meaning, so any unknown code stands for them. -/
theorem exec_frame {i : Instr} (hi : i.isFrame = true) : ∃ ctrl p, ∀ s, exec i s = .next (classify ctrl p s) := by
  have run {j : Instr} {ctrl : Byte} {p : Packet} (h : decodeFrame ctrl p = j) :
      ∃ ctrl p, ∀ s, exec j s = .next (classify ctrl p s) :=
    ⟨ctrl, p, fun s => h ▸ exec_decodeFrame ctrl p s⟩
  cases i with
  | iFrame ns nr pf p => exact run (decodeFrame_iCtrl ns nr pf p)
  | rr nr pf p => exact run (decodeFrame_sCtrl fnRR nr pf p)
  | rnr nr pf p => exact run (decodeFrame_sCtrl fnRNR nr pf p)
  | rej nr pf p => exact run (decodeFrame_sCtrl fnREJ nr pf p)
  | srej nr pf p => exact run (decodeFrame_sCtrl fnSREJ nr pf p)
  | snrm pf p => exact run (decodeFrame_uCode (code := codeSNRM) rfl pf p)
  | ua pf p => exact run (decodeFrame_uCode (code := codeUA) rfl pf p)
  | dm pf p => exact run (decodeFrame_uCode (code := codeDM) rfl pf p)
  | disc pf p => exact run (decodeFrame_uCode (code := codeDISC) rfl pf p)
  | ui pf p => exact run (decodeFrame_uCode (code := codeUI) rfl pf p)
  | uUnknown code pf p =>
    exact run (j := .uUnknown 0x2F false p) (decodeFrame_unknownUCode (code := 0x2F) (by decide) false p)
  | nop | softReset | readReg | crcReset | crcUpdate | crcGet | crcGetLast | rxByte | stuff | connect | disconnect
  | submit | dispatchDone | tick | reserved => cases hi

/-! ### Counters -/

theorem counterValue_addCounter (c d : Counter) (n : Nat) (k : Counters) :
    counterValue d (addCounter c n k) = counterValue d k + if d = c then BitVec.ofNat 16 n else 0#16 := by
  cases c <;> cases d <;> simp [counterValue, addCounter]

theorem addCounter_zero (c : Counter) (k : Counters) : addCounter c 0 k = k := by
  cases c <;> simp [addCounter]

/-- From s to t at most one counter counts, by at most 8: the slots of a window (43_link_engine.md R190). -/
def CountsOne (s t : State) : Prop := ∃ c, ∃ k ≤ 8, t.cnt = addCounter c k s.cnt

section
variable {s t : State}

theorem CountsOne.of_cnt_eq (h : t.cnt = s.cnt) : CountsOne s t :=
  ⟨.crcErr, 0, Nat.zero_le 8, h.trans (addCounter_zero _ _).symm⟩

theorem CountsOne.of_count {c : Counter} (h : t.cnt = s.cnt) : CountsOne s (count c t) :=
  ⟨c, 1, by decide, congrArg (addCounter c 1) h⟩

theorem CountsOne.congr_right {u : State} (h : CountsOne s t) (e : u.cnt = t.cnt) : CountsOne s u := by
  obtain ⟨c, k, hk, ht⟩ := h
  exact ⟨c, k, hk, e.trans ht⟩

theorem CountsOne.counterValue_eq (h : CountsOne s t) (d : Counter) :
    ∃ k ≤ 8, counterValue d t.cnt = counterValue d s.cnt + BitVec.ofNat 16 k := by
  obtain ⟨c, k, hk, ht⟩ := h
  rw [ht, counterValue_addCounter]
  split_ifs
  · exact ⟨k, hk, rfl⟩
  · exact ⟨0, Nat.zero_le 8, rfl⟩

end

section
variable (s : State)

theorem occupied_le (v : Vector (Option Packet) 8) : occupied v ≤ 8 :=
  List.countP_le_length.trans_eq v.length_toList

theorem seqReset_countsOne : CountsOne s (seqReset s) := ⟨.winDiscard, _, occupied_le s.winSlot, rfl⟩

theorem goDown_countsOne (r : LinkDownReason) : CountsOne s (goDown r s) :=
  ⟨.winDiscard, _, occupied_le s.winSlot, rfl⟩

theorem ackUpTo_getD_countsOne (nr : U3) {d : State} (hd : CountsOne s d) :
    CountsOne s ((ackUpTo nr s).getD d) := by
  cases hv : nrValid s nr with
  | false => rwa [ackUpTo_invalid hv, Option.getD_none]
  | true =>
    obtain ⟨_, hack, -⟩ := ackUpTo_valid hv
    rw [hack, Option.getD_some]
    exact .of_cnt_eq rfl

theorem ackUpTo_getD_cnt (nr : U3) : ((ackUpTo nr s).getD s).cnt = s.cnt := by
  cases hv : nrValid s nr with
  | false => rw [ackUpTo_invalid hv, Option.getD_none]
  | true =>
    obtain ⟨_, hack, -⟩ := ackUpTo_valid hv
    rw [hack, Option.getD_some]

theorem goUp_cnt : (goUp s).cnt = s.cnt := drain_cnt _

theorem handleI_countsOne (ns nr : U3) (p : Packet) : CountsOne s (handleI ns nr p s) := by
  by_cases hup : s.link = .up
  · by_cases hns : ns = s.rxNext
    · subst hns
      rw [handleI_inSequence hup]
      exact (ackUpTo_getD_countsOne s nr (.of_count rfl)).congr_right (drain_cnt (acceptNext _))
    · rw [handleI_outOfSequence hup hns]
      exact .of_count rfl
  · rw [handleI_notUp hup]
    exact .of_count rfl

theorem guardS_countsOne (nr : U3) {act : State → State} (hact : CountsOne s (act s)) :
    CountsOne s (guardS nr act s) := by
  rw [guardS]
  split_ifs
  · exact .of_count rfl
  · exact hact
  · exact .of_count rfl

theorem resendWindow_cnt : (resendWindow s).cnt = addCounter .retx (winCount s) s.cnt := by
  rw [resendWindow, resendN_eq]

theorem ackAndResend_countsOne (nr : U3) : CountsOne s (ackAndResend nr s) := by
  have acked := ackUpTo_getD_cnt s nr
  simp only [ackAndResend]
  split_ifs
  · exact ⟨.retx, _, (winCount_lt _).le, by rw [drain_cnt, resendWindow_cnt, acked]⟩
  · exact .of_cnt_eq (by rw [drain_cnt, acked])

theorem handleS_countsOne (fn : BitVec 2) (nr : U3) : CountsOne s (handleS fn nr s) := by
  have drains : CountsOne s (guardS nr (ackAndDrain nr) s) :=
    guardS_countsOne s nr (.of_cnt_eq ((drain_cnt _).trans (ackUpTo_getD_cnt s nr)))
  have resends := guardS_countsOne s nr (ackAndResend_countsOne s nr)
  rw [handleS]
  split_ifs
  exacts [drains, drains, resends, resends]

theorem handleU_countsOne (code : Byte) (p : Packet) : CountsOne s (handleU code p s) := by
  simp only [handleU, recvSnrm, recvUa, recvDm, recvDisc_eq, recvUi, recvUnknownU]
  split_ifs
  · exact (seqReset_countsOne s).congr_right (goUp_cnt _)
  · exact .of_cnt_eq (goUp_cnt s)
  · exact .of_cnt_eq rfl
  · exact goDown_countsOne s .peerDm
  · exact .of_cnt_eq rfl
  · exact .of_cnt_eq rfl
  · exact goDown_countsOne (sendU codeUA s) .peerDisc
  · exact .of_cnt_eq rfl
  · exact goDown_countsOne (sendU codeDM s) .unknownU
  · exact .of_cnt_eq rfl

theorem classify_countsOne (ctrl : Byte) (p : Packet) : CountsOne s (classify ctrl p s) := by
  rw [classify]
  split_ifs
  exacts [handleI_countsOne s _ _ p, handleS_countsOne s _ _, handleU_countsOne s _ p]

/-! ### Timers -/

theorem linkExpiry_sameRx : SameRx s (linkExpiry s) := by
  rw [linkExpiry]
  split_ifs <;> constructor <;> rfl

theorem retxExpiry_sameRx : SameRx s (retxExpiry s) := by
  rw [retxExpiry]
  split_ifs <;> constructor <;> rfl

theorem tickLT_sameRx : SameRx s (tickLT s) := by
  rw [tickLT]
  split_ifs
  · exact .trans (by constructor <;> rfl) (linkExpiry_sameRx { s with lt := .off })
  · constructor <;> rfl
  · exact .refl s

theorem tickRT_sameRx : SameRx s (tickRT s) := by
  rw [tickRT]
  split_ifs
  · exact .trans (by constructor <;> rfl) (retxExpiry_sameRx { s with rt := .off })
  · constructor <;> rfl
  · exact .refl s

theorem tickLT_cnt : (tickLT s).cnt = s.cnt := by
  rw [tickLT, linkExpiry]
  split_ifs <;> rfl

theorem tickRT_countsOne : CountsOne s (tickRT s) := by
  rw [tickRT, retxExpiry]
  split_ifs
  · exact .of_count rfl
  · exact .of_cnt_eq rfl
  · exact .of_cnt_eq rfl
  · exact .of_cnt_eq rfl

end

/-! ### What one instruction can do -/

/-- What a command other than RX_BYTE may have done when it responds, by the rules that write the state. A command that
has done nothing is one for which R203's table keeps LINK. -/
inductive CommandWork (s : State) : Instr → State → Prop
  | none {i : Instr} (hlink : linkAfter s i = s.link) : CommandWork s i s
  | softReset : CommandWork s .softReset (softReset s)
  | crcReset : CommandWork s .crcReset { s with crcH := crcResetX }
  | crcUpdate (b : Byte) : CommandWork s (.crcUpdate b) { s with crcH := crcUpdateX s.cfg.crcVariant s.crcH b }
  | connect (hd : s.dispPend = false) (hl : s.link ≠ .up) : CommandWork s .connect
      (armLT s.cfg.tLink (sendU codeSNRM (seqReset { s with link := .connecting })))
  | disconnect (hd : s.dispPend = false) : CommandWork s .disconnect (goDown .loc (sendU codeDISC s))
  | submit {p : Packet} (hfits : p.length ≤ s.cfg.maxPayload) (hroom : s.inFifo.length ≠ s.cfg.inFifoDepth) :
      CommandWork s (.submit p) (drain { s with inFifo := s.inFifo ++ [p] })
  | dispatchOwed : CommandWork s .dispatchDone
      { sendS fnRR s.rxNext { s with dispPend := false } with ackPend := false }
  | dispatchNotOwed : CommandWork s .dispatchDone { s with dispPend := false, ackPend := false }
  | tick : CommandWork s .tick (tickRT (tickLT s))

/-- What RX_BYTE may have done when it responds (41_frame_codec.md R144 to R148, 42_frame_parser.md R170 to R176). -/
inductive LineByteWork (s : State) : Byte → State → Prop
  | none (b : Byte) : LineByteWork s b s
  | opened : LineByteWork s flagByte { rxOpen s with rxState := .inFrame }
  | escape : LineByteWork s escByte { s with rxState := .escaping }
  | stored (b c : Byte) (hs : s.rxState ≠ .idle) : LineByteWork s b { rxStore c s with rxState := .inFrame }
  | dropped (c : Counter) : LineByteWork s flagByte (count c { s with rxState := .idle })
  | ran {ctrl : Byte} {p : Packet} (hs : s.rxState = .inFrame) (hd : s.dispPend = false) (hpasses : s.FramePasses)
      (hframe : bufferedFrame s = decodeFrame ctrl p) :
      LineByteWork s flagByte (classify ctrl p { s with rxState := .idle })

/-- What any instruction may do: a frame class runs `classify`; a command does its work and responds. -/
inductive ExecWork (s : State) : Instr → State → Prop
  | frame {i : Instr} (hi : i.isFrame = true) (ctrl : Byte) (p : Packet) : ExecWork s i (classify ctrl p s)
  | lineByte {b : Byte} {u : State} (st : Status) (work : LineByteWork s b u) :
      ExecWork s (.rxByte b) (respond st [] u)
  | command {i : Instr} {u : State} (st : Status) (data : List Byte) (work : CommandWork s i u) :
      ExecWork s i (respond st data u)

section
variable {s t : State}

theorem frameComplete_work (hs : s.rxState = .inFrame) (hd : s.dispPend = false)
    (h : frameComplete { s with rxState := .idle } = .ok t) : LineByteWork s flagByte t := by
  obtain ⟨-, rfl⟩ | ⟨-, -, rfl⟩ | ⟨-, -, -, rfl, -⟩ | ⟨hovr, hlong, -, rfl, hfcs⟩ := frameComplete_cases h
  · exact .dropped .overrun
  · exact .dropped .short
  · exact .dropped .crcErr
  · have passes : s.FramePasses :=
      ⟨hovr, hlong, (fcsReceived_rxBytes (s := { s with rxState := .idle }) hlong).symm.trans hfcs⟩
    exact .ran hs hd passes rfl

theorem rxAccept_work {b : Byte} (hd : s.dispPend = false) (h : rxAccept b s = .ok t) : LineByteWork s b t := by
  obtain rfl | ⟨rfl, -, rfl⟩ | ⟨rfl, -, rfl⟩ | ⟨hs, c, rfl⟩ | ⟨rfl, hs, -, hclosed⟩ := rxAccept_cases h
  · exact .none b
  · exact .opened
  · exact .escape
  · exact .stored b c hs
  · exact frameComplete_work hs hd hclosed

theorem exec_rxByte_work {b : Byte} (hexec : exec (.rxByte b) s = .next t) : ExecWork s (.rxByte b) t := by
  obtain ⟨-, rfl⟩ | ⟨hd, u, haccept, rfl⟩ := execRxByte_cases hexec
  · exact .lineByte .busy (.none b)
  · exact .lineByte .ok (rxAccept_work hd haccept)

/-- A command whose outcome is known does what that outcome says. -/
theorem ExecWork.of_eq {i : Instr} {st : Status} {data : List Byte} {u : State}
    (h : exec i s = .next (respond st data u)) (work : CommandWork s i u) (hexec : exec i s = .next t) :
    ExecWork s i t := by
  obtain rfl := Host.Outcome.next.inj (h.symm.trans hexec)
  exact .command st data work

theorem exec_connect_work (hexec : exec .connect s = .next t) : ExecWork s .connect t := by
  cases hd : s.dispPend with
  | true => exact .of_eq (execConnect_busy hd) (.none (if_neg fun h => ne_false_of_eq_true hd h.1)) hexec
  | false =>
    by_cases hl : s.link = .up
    · exact .of_eq (execConnect_up hd hl) (.none (if_neg fun h => h.2 hl)) hexec
    · exact .of_eq (execConnect_notUp hd hl) (.connect hd hl) hexec

theorem exec_disconnect_work (hexec : exec .disconnect s = .next t) : ExecWork s .disconnect t := by
  cases hd : s.dispPend with
  | true => exact .of_eq (execDisconnect_busy hd) (.none (if_pos hd)) hexec
  | false =>
    by_cases hl : s.link = .down
    · exact .of_eq (execDisconnect_down hd hl) (.none ((if_neg (ne_true_of_eq_false hd)).trans hl.symm)) hexec
    · exact .of_eq (execDisconnect_notDown hd hl) (.disconnect hd) hexec

theorem exec_submit_work {p : Packet} (hexec : exec (.submit p) s = .next t) : ExecWork s (.submit p) t := by
  by_cases hlong : s.cfg.maxPayload < p.length
  · exact .of_eq (execSubmit_tooLong hlong) (.none rfl) hexec
  · have hfits := Nat.not_lt.1 hlong
    by_cases hfull : s.inFifo.length = s.cfg.inFifoDepth
    · exact .of_eq (execSubmit_full hfits hfull) (.none rfl) hexec
    · exact .of_eq (execSubmit_queued hfits hfull) (.submit hfits hfull) hexec

theorem exec_dispatchDone_work (hexec : exec .dispatchDone s = .next t) : ExecWork s .dispatchDone t := by
  cases hd : s.dispPend with
  | false => exact .of_eq (execDispatchDone_badState hd) (.none rfl) hexec
  | true =>
    by_cases howed : s.ackPend = true ∧ s.link = .up
    · exact .of_eq (execDispatchDone_owed hd howed.1 howed.2) .dispatchOwed hexec
    · have hnone : s.ackPend = false ∨ s.link ≠ .up := (not_and_or.1 howed).imp_left eq_false_of_ne_true
      exact .of_eq (execDispatchDone_notOwed hd hnone) .dispatchNotOwed hexec

theorem exec_tick_work (hexec : exec .tick s = .next t) : ExecWork s .tick t := by
  cases hd : s.dispPend with
  | true => exact .of_eq (exec_tick_busy hd) (.none rfl) hexec
  | false =>
    cases hpresent : s.cfg.timerPresent with
    | true => exact .of_eq (exec_tick_serviced hd hpresent) .tick hexec
    | false => exact .of_eq (exec_tick_noTimer hd hpresent) (.none rfl) hexec

theorem exec_readReg_work {b : Byte} (hexec : exec (.readReg b) s = .next t) : ExecWork s (.readReg b) t := by
  cases hv : regValue s b with
  | none => exact .of_eq (exec_readReg_of_none hv) (.none rfl) hexec
  | some v => exact .of_eq (exec_readReg_of_some hv) (.none rfl) hexec

theorem exec_work {i : Instr} (hexec : exec i s = .next t) : ExecWork s i t := by
  cases hi : i.isFrame with
  | true =>
    obtain ⟨ctrl, p, hrun⟩ := exec_frame hi
    obtain rfl := Host.Outcome.next.inj ((hrun s).symm.trans hexec)
    exact .frame hi ctrl p
  | false =>
    cases i with
    | rxByte b => exact exec_rxByte_work hexec
    | connect => exact exec_connect_work hexec
    | disconnect => exact exec_disconnect_work hexec
    | submit p => exact exec_submit_work hexec
    | dispatchDone => exact exec_dispatchDone_work hexec
    | tick => exact exec_tick_work hexec
    | readReg b => exact exec_readReg_work hexec
    | softReset => exact .of_eq rfl .softReset hexec
    | crcReset => exact .of_eq rfl .crcReset hexec
    | crcUpdate b => exact .of_eq rfl (.crcUpdate b) hexec
    | nop | stuff | crcGet | crcGetLast | reserved => exact .of_eq rfl (.none rfl) hexec
    | iFrame | rr | rnr | rej | srej | snrm | ua | dm | disc | ui | uUnknown => cases hi

end

/-! ### Who writes which element -/

/-- The writers of 10_state.md R21, R22, R33 and 20_memory.md R60, from s to t by i. -/
structure WritersKept (i : Instr) (s t : State) : Prop where
  cfg : t.cfg = s.cfg
  input : t.input = s.input
  crcH : i ≠ .softReset → t.crcH ≠ s.crcH → i = .crcReset ∨ ∃ b, i = .crcUpdate b
  crcRx : i ≠ .softReset → t.crcRx ≠ s.crcRx → ∃ b, i = .rxByte b
  rxBuf : i ≠ .softReset → ∀ a, Memory.read t.rxBuf a ≠ Memory.read s.rxBuf a →
    a = s.rxLen ∧ a < s.cfg.maxFrame ∧ s.rxState ≠ .idle ∧ ∃ b, i = .rxByte b
  cnt : i ≠ .softReset → CountsOne s t

section
variable {i : Instr} {s u : State}

theorem WritersKept.of_sameRx (same : SameRx s u) (counts : CountsOne s u) : WritersKept i s u where
  cfg := same.cfg
  input := same.input
  crcH _ h := absurd same.crcH h
  crcRx _ h := absurd same.crcRx h
  rxBuf _ _ h := absurd (by rw [same.rxBuf]) h
  cnt _ := counts

/-- A response writes the output alone. -/
theorem WritersKept.respond (kept : WritersKept i s u) (st : Status) (data : List Byte) :
    WritersKept i s (respond st data u) :=
  ⟨kept.cfg, kept.input, kept.crcH, kept.crcRx, kept.rxBuf, kept.cnt⟩

/-- RX_BYTE may move the codec's state, RX_LEN, RX_OVR and CRC_RX freely. -/
theorem WritersKept.of_rxByte (b : Byte) (cfg : u.cfg = s.cfg) (input : u.input = s.input) (crcH : u.crcH = s.crcH)
    (rxBuf : u.rxBuf = s.rxBuf) (counts : CountsOne s u) : WritersKept (.rxByte b) s u where
  cfg := cfg
  input := input
  crcH _ h := absurd crcH h
  crcRx _ _ := ⟨b, rfl⟩
  rxBuf _ _ h := absurd (by rw [rxBuf]) h
  cnt _ := counts

theorem writersKept_stored (b c : Byte) (hs : s.rxState ≠ .idle) :
    WritersKept (.rxByte b) s { rxStore c s with rxState := .inFrame } := by
  by_cases hroom : s.rxLen < s.cfg.maxFrame
  · rw [rxStore_room c hroom]
    refine ⟨rfl, rfl, fun _ h => absurd rfl h, fun _ _ => ⟨b, rfl⟩, fun _ a ha => ?_, fun _ => .of_cnt_eq rfl⟩
    have written : a = s.rxLen := by
      by_contra hother
      exact ha (Memory.read_write_other s.rxBuf c hother)
    exact ⟨written, written ▸ hroom, hs, b, rfl⟩
  · rw [rxStore_full c (Nat.not_lt.1 hroom)]
    exact .of_rxByte b rfl rfl rfl rfl (.of_cnt_eq rfl)

theorem LineByteWork.writersKept {b : Byte} (work : LineByteWork s b u) : WritersKept (.rxByte b) s u := by
  cases work with
  | none => exact .of_sameRx (.refl s) (.of_cnt_eq rfl)
  | opened => exact .of_rxByte _ rfl rfl rfl rfl (.of_cnt_eq rfl)
  | escape => exact .of_rxByte _ rfl rfl rfl rfl (.of_cnt_eq rfl)
  | stored _ c hs => exact writersKept_stored b c hs
  | dropped c => exact .of_rxByte _ rfl rfl rfl rfl (.of_count rfl)
  | @ran ctrl p =>
    have same := classify_sameRx ctrl p { s with rxState := .idle }
    exact .of_rxByte _ same.cfg same.input same.crcH same.rxBuf (classify_countsOne { s with rxState := .idle } ctrl p)

theorem tick_sameRx (s : State) : SameRx s (tickRT (tickLT s)) := (tickLT_sameRx s).trans (tickRT_sameRx _)

theorem tick_countsOne (s : State) : CountsOne s (tickRT (tickLT s)) := by
  obtain ⟨c, k, hk, h⟩ := tickRT_countsOne (tickLT s)
  exact ⟨c, k, hk, by rw [h, tickLT_cnt]⟩

theorem CommandWork.writersKept (work : CommandWork s i u) : WritersKept i s u := by
  cases work with
  | none => exact .of_sameRx (.refl s) (.of_cnt_eq rfl)
  | softReset =>
    exact ⟨rfl, rfl, fun h => absurd rfl h, fun h => absurd rfl h, fun h => absurd rfl h, fun h => absurd rfl h⟩
  | crcReset =>
    exact ⟨rfl, rfl, fun _ _ => .inl rfl, fun _ h => absurd rfl h, fun _ _ h => absurd rfl h, fun _ => .of_cnt_eq rfl⟩
  | crcUpdate b =>
    exact ⟨rfl, rfl, fun _ _ => .inr ⟨b, rfl⟩, fun _ h => absurd rfl h, fun _ _ h => absurd rfl h,
      fun _ => .of_cnt_eq rfl⟩
  | connect => exact .of_sameRx (by constructor <;> rfl) (seqReset_countsOne s)
  | disconnect => exact .of_sameRx (by constructor <;> rfl) (goDown_countsOne s .loc)
  | submit =>
    exact .of_sameRx (.trans (by constructor <;> rfl) (drain_sameRx _)) (.of_cnt_eq (drain_cnt _))
  | dispatchOwed => exact .of_sameRx (by constructor <;> rfl) (.of_cnt_eq rfl)
  | dispatchNotOwed => exact .of_sameRx (by constructor <;> rfl) (.of_cnt_eq rfl)
  | tick => exact .of_sameRx (tick_sameRx s) (tick_countsOne s)

theorem exec_writersKept {t : State} (hexec : exec i s = .next t) : WritersKept i s t := by
  cases exec_work hexec with
  | frame _ ctrl p => exact .of_sameRx (classify_sameRx ctrl p s) (classify_countsOne s ctrl p)
  | lineByte st work => exact work.writersKept.respond st []
  | command st data work => exact work.writersKept.respond st data

/-- A frame class appends no response, and a command one response last. -/
theorem exec_out {t : State} (hexec : exec i s = .next t) :
    ∃ new, t.out = s.out ++ new ∧ (i.isFrame = true → ∀ o ∈ new, isResp o = false) := by
  cases hi : i.isFrame with
  | true =>
    obtain ⟨ctrl, p, hrun⟩ := exec_frame hi
    obtain rfl := Host.Outcome.next.inj ((hrun s).symm.trans hexec)
    obtain ⟨new, hout, hquiet⟩ := classify_noNewResponse s ctrl p
    exact ⟨new, hout, fun _ => hquiet⟩
  | false =>
    obtain ⟨st, hst⟩ := exists_statusOf s hi
    obtain ⟨⟨mid, data, hout, -⟩, -⟩ := statusOfEveryCommand i s t st hexec hst
    exact ⟨mid ++ [.resp st data], by rw [hout, List.append_assoc], nofun⟩

end

/-- Settles O60. -/
theorem writersOfEachElement : Obligations.WritersOfEachElement := by
  unfold Obligations.WritersOfEachElement
  intro i s t hexec
  have kept := exec_writersKept hexec
  exact ⟨kept.cfg, kept.input, exec_out hexec, fun hi =>
    ⟨kept.crcH hi, kept.crcRx hi, kept.rxBuf hi, (kept.cnt hi).counterValue_eq⟩⟩

end Sys2Proof.Machine

/-!
SUPPORT. LINK and RX_NEXT (43_link_engine.md R203, 44_arq_window.md R237 item 1): which operations leave both alone, then
each instruction against the transition table and against the two ways in which RX_NEXT changes.
-/

namespace Sys2Proof.Machine

/-! ### What leaves LINK and RX_NEXT alone -/

def SameLinkRxNext (s t : State) : Prop := t.link = s.link ∧ t.rxNext = s.rxNext

theorem SameLinkRxNext.trans {s t u : State} (h : SameLinkRxNext s t) (h' : SameLinkRxNext t u) : SameLinkRxNext s u :=
  ⟨h'.1.trans h.1, h'.2.trans h.2⟩

section
variable (s : State)

theorem drain_sameLinkRxNext : SameLinkRxNext s (drain s) := ⟨drain_link s, drain_rxNext s⟩

theorem ackUpTo_getD_sameLinkRxNext (nr : U3) {d : State} (hd : SameLinkRxNext s d) :
    SameLinkRxNext s ((ackUpTo nr s).getD d) := by
  cases hv : nrValid s nr with
  | false => rwa [ackUpTo_invalid hv, Option.getD_none]
  | true =>
    obtain ⟨_, hack, -⟩ := ackUpTo_valid hv
    rw [hack, Option.getD_some]
    exact ⟨rfl, rfl⟩

theorem resendWindow_sameLinkRxNext : SameLinkRxNext s (resendWindow s) := by
  rw [resendWindow, resendN_eq]
  exact ⟨rfl, rfl⟩

theorem guardS_sameLinkRxNext (nr : U3) {act : State → State} (hact : SameLinkRxNext s (act s)) :
    SameLinkRxNext s (guardS nr act s) := by
  rw [guardS]
  split_ifs
  exacts [⟨rfl, rfl⟩, hact, ⟨rfl, rfl⟩]

theorem ackAndDrain_sameLinkRxNext (nr : U3) : SameLinkRxNext s (ackAndDrain nr s) :=
  (ackUpTo_getD_sameLinkRxNext s nr ⟨rfl, rfl⟩).trans (drain_sameLinkRxNext _)

theorem ackAndResend_sameLinkRxNext (nr : U3) : SameLinkRxNext s (ackAndResend nr s) := by
  refine (ackUpTo_getD_sameLinkRxNext s nr ⟨rfl, rfl⟩).trans ?_
  simp only [ackAndResend]
  split_ifs
  · exact (resendWindow_sameLinkRxNext _).trans (drain_sameLinkRxNext _)
  · exact drain_sameLinkRxNext _

theorem tickLT_sameLinkRxNext : SameLinkRxNext s (tickLT s) := by
  rw [tickLT, linkExpiry]
  split_ifs <;> exact ⟨rfl, rfl⟩

theorem tickRT_sameLinkRxNext : SameLinkRxNext s (tickRT s) := by
  rw [tickRT, retxExpiry]
  split_ifs <;> exact ⟨rfl, rfl⟩

theorem rxStore_sameLinkRxNext (b : Byte) : SameLinkRxNext s (rxStore b s) := by
  rw [rxStore]
  split_ifs <;> exact ⟨rfl, rfl⟩

theorem handleI_link (ns nr : U3) (p : Packet) : (handleI ns nr p s).link = s.link := by
  by_cases hup : s.link = .up
  · by_cases hns : ns = s.rxNext
    · subst hns
      rw [handleI_inSequence hup, deliver_link, drain_link, acceptNext_link]
      exact (ackUpTo_getD_sameLinkRxNext s nr (d := count .badNr s) ⟨rfl, rfl⟩).1
    · rw [handleI_outOfSequence hup hns]
      rfl
  · rw [handleI_notUp hup]
    rfl

end

/-! ### What an instruction does to them -/

/-- RX_NEXT after i: as it was, 0, or one more for an I-frame in sequence in Up (R237 item 1). -/
inductive RxNextStep (s : State) : Instr → State → Prop
  | same {i : Instr} {t : State} (h : t.rxNext = s.rxNext) : RxNextStep s i t
  | zero {i : Instr} {t : State} (h : t.rxNext = 0) : RxNextStep s i t
  | accepted {nr : U3} {pf : Bool} {p : Packet} {t : State} (hup : s.link = .up) (h : t.rxNext = s.rxNext + 1) :
      RxNextStep s (.iFrame s.rxNext nr pf p) t

theorem RxNextStep.respond {s t : State} {i : Instr} (h : RxNextStep s i t) (st : Status) (data : List Byte) :
    RxNextStep s i (respond st data t) := by
  cases h with
  | same h => exact .same h
  | zero h => exact .zero h
  | accepted hup h => exact .accepted hup h

/-- LINK follows R203's table and RX_NEXT R237. -/
def FollowsTables (s : State) (i : Instr) (t : State) : Prop := t.link = linkAfter s i ∧ RxNextStep s i t

section
variable {s t : State}

theorem FollowsTables.of_same {i : Instr} (h : SameLinkRxNext s t) (hi : linkAfter s i = s.link) :
    FollowsTables s i t :=
  ⟨h.1.trans hi.symm, .same h.2⟩

theorem iFrame_followsTables (ns nr : U3) (pf : Bool) (p : Packet) :
    FollowsTables s (.iFrame ns nr pf p) (handleI ns nr p s) := by
  refine ⟨handleI_link s ns nr p, ?_⟩
  by_cases hup : s.link = .up
  · by_cases hns : ns = s.rxNext
    · subst hns
      have acked := ackUpTo_getD_sameLinkRxNext s nr (d := count .badNr s) ⟨rfl, rfl⟩
      refine .accepted hup ?_
      rw [handleI_inSequence hup, deliver_rxNext, drain_rxNext, acceptNext_rxNext, acked.2]
    · rw [handleI_outOfSequence hup hns]
      exact .same rfl
  · rw [handleI_notUp hup]
    exact .same rfl

theorem recvUa_followsTables (pf : Bool) (info : Packet) : FollowsTables s (.ua pf info) (recvUa s) := by
  rw [recvUa]
  split_ifs with hl
  · exact ⟨(drain_link _).trans (if_pos hl).symm, .same (drain_rxNext _)⟩
  · exact .of_same ⟨rfl, rfl⟩ (if_neg hl)

theorem recvDm_followsTables (pf : Bool) (info : Packet) : FollowsTables s (.dm pf info) (recvDm s) := by
  rw [recvDm]
  split_ifs with hl
  · exact ⟨(if_pos hl).symm, .zero rfl⟩
  · exact .of_same ⟨rfl, rfl⟩ (if_neg hl)

theorem recvDisc_followsTables (pf : Bool) (info : Packet) : FollowsTables s (.disc pf info) (recvDisc s) := by
  rw [recvDisc_eq]
  split_ifs with hl
  · exact ⟨hl, .same rfl⟩
  · exact ⟨rfl, .zero rfl⟩

theorem recvUnknownU_followsTables (code : Byte) (pf : Bool) (info : Packet) :
    FollowsTables s (.uUnknown code pf info) (recvUnknownU s) := by
  rw [recvUnknownU]
  split_ifs with hl
  · exact ⟨(if_pos hl).symm, .zero rfl⟩
  · exact .of_same ⟨rfl, rfl⟩ (if_neg hl)

theorem frame_followsTables {i : Instr} (hi : i.isFrame = true) (hexec : exec i s = .next t) : FollowsTables s i t := by
  cases i with
  | iFrame ns nr pf p => cases hexec; exact iFrame_followsTables ns nr pf p
  | rr nr | rnr nr =>
    cases hexec
    exact .of_same (guardS_sameLinkRxNext s nr (ackAndDrain_sameLinkRxNext s nr)) rfl
  | rej nr | srej nr =>
    cases hexec
    exact .of_same (guardS_sameLinkRxNext s nr (ackAndResend_sameLinkRxNext s nr)) rfl
  | snrm pf info => cases hexec; exact ⟨drain_link _, .zero (drain_rxNext _)⟩
  | ua pf info => cases hexec; exact recvUa_followsTables pf info
  | dm pf info => cases hexec; exact recvDm_followsTables pf info
  | disc pf info => cases hexec; exact recvDisc_followsTables pf info
  | ui pf p => cases hexec; exact .of_same ⟨rfl, rfl⟩ rfl
  | uUnknown code pf info => cases hexec; exact recvUnknownU_followsTables code pf info
  | nop | softReset | readReg | crcReset | crcUpdate | crcGet | crcGetLast | rxByte | stuff | connect | disconnect
  | submit | dispatchDone | tick | reserved => cases hi

theorem CommandWork.followsTables {i : Instr} {u : State} (work : CommandWork s i u) : FollowsTables s i u := by
  cases work with
  | none hlink => exact .of_same ⟨rfl, rfl⟩ hlink
  | softReset => exact ⟨rfl, .zero rfl⟩
  | crcReset | crcUpdate | dispatchOwed | dispatchNotOwed => exact .of_same ⟨rfl, rfl⟩ rfl
  | connect hd hl => exact ⟨(if_pos ⟨hd, hl⟩).symm, .zero rfl⟩
  | disconnect hd => exact ⟨(if_neg (ne_true_of_eq_false hd)).symm, .zero rfl⟩
  | submit => exact .of_same (.trans ⟨rfl, rfl⟩ (drain_sameLinkRxNext _)) rfl
  | tick => exact .of_same ((tickLT_sameLinkRxNext s).trans (tickRT_sameLinkRxNext _)) rfl

theorem linkAfter_setRxState (s : State) (x : RxState) (i : Instr) :
    linkAfter { s with rxState := x } i = linkAfter s i := by
  cases i <;> rfl

/-- Neither table reads RX_STATE. -/
theorem FollowsTables.of_setRxState {x : RxState} {i : Instr} (h : FollowsTables { s with rxState := x } i t) :
    FollowsTables s i t := by
  obtain ⟨hlink, hnext⟩ := h
  refine ⟨hlink.trans (linkAfter_setRxState s x i), ?_⟩
  cases hnext with
  | same h => exact .same h
  | zero h => exact .zero h
  | accepted hup h => exact .accepted hup h

/-- A line byte by itself moves neither; the closing flag of a frame that passes does what that frame's class does. -/
theorem LineByteWork.followsTables {b : Byte} {u : State} (work : LineByteWork s b u) :
    SameLinkRxNext s u ∨
      (b = flagByte ∧ s.rxState = .inFrame ∧ s.dispPend = false ∧ s.FramePasses ∧
        FollowsTables s (bufferedFrame s) u) := by
  cases work with
  | none | opened | escape | dropped => exact .inl ⟨rfl, rfl⟩
  | stored _ c => exact .inl (rxStore_sameLinkRxNext s c)
  | @ran ctrl p hs hd hpasses hframe =>
    have follows := frame_followsTables (decodedFramesReencode ctrl p).1
      (exec_decodeFrame ctrl p { s with rxState := .idle })
    exact .inr ⟨rfl, hs, hd, hpasses, hframe ▸ follows.of_setRxState⟩

/-- Every instruction follows both tables, or it is the RX_BYTE that completes a frame whose class does. -/
theorem exec_followsTables {i : Instr} (hexec : exec i s = .next t) :
    FollowsTables s i t ∨
      (i = .rxByte flagByte ∧ s.dispPend = false ∧ s.rxState = .inFrame ∧ s.FramePasses ∧
        FollowsTables s (bufferedFrame s) t) := by
  cases exec_work hexec with
  | frame hi => exact .inl (frame_followsTables hi hexec)
  | command st data work =>
    obtain ⟨hlink, hnext⟩ := work.followsTables
    exact .inl ⟨hlink, hnext.respond st data⟩
  | lineByte st work =>
    obtain same | ⟨rfl, hs, hd, hpasses, hlink, hnext⟩ := work.followsTables
    · exact .inl (.of_same same rfl)
    · exact .inr ⟨rfl, hd, hs, hpasses, hlink, hnext.respond st []⟩

end

/-- Settles O34. -/
theorem linkChangesOnlyByTable : Obligations.LinkChangesOnlyByTable := by
  unfold Obligations.LinkChangesOnlyByTable
  intro i s t hexec
  obtain ⟨hlink, -⟩ | ⟨hi, hd, hs, hpasses, hlink, -⟩ := exec_followsTables hexec
  · exact .inl hlink
  · exact .inr ⟨hi, hd, hs, hpasses, hlink⟩

/-- Settles O45. -/
theorem rxNextAdvancesByOne : Obligations.RxNextAdvancesByOne := by
  unfold Obligations.RxNextAdvancesByOne
  intro i s t hexec hchanged
  obtain ⟨-, hnext⟩ | ⟨hi, hd, hs, hpasses, -, hnext⟩ := exec_followsTables hexec
  · cases hnext with
    | same h => exact absurd h hchanged
    | zero h => exact .inl h
    | accepted hup h => exact .inr ⟨h, hup, _, _, _, .inl rfl⟩
  · generalize bufferedFrame s = f at hnext ⊢
    cases hnext with
    | same h => exact absurd h hchanged
    | zero h => exact .inl h
    | accepted hup h => exact .inr ⟨h, hup, _, _, _, .inr ⟨hi, hd, hs, hpasses, rfl⟩⟩

end Sys2Proof.Machine

/-!
SUPPORT. The invariant of 10_state.md R37 along every step. Its parts on single elements (`CoreInv`) hold at every point
inside an instruction; the handshake and the drained window (items 6 and 7) hold again when it ends.
-/

namespace Sys2Proof

section
variable {p : Params}

theorem Params.InRange.allowedInTransit_le (h : p.InRange) : p.allowedInTransit ≤ 7 := by
  obtain ⟨-, -, ⟨-, hle⟩, -, -⟩ := h
  exact hle

theorem Params.InRange.tLink_ne_zero (h : p.InRange) : p.tLink ≠ 0 := by
  obtain ⟨-, -, -, hne, -⟩ := h
  exact hne

theorem Params.InRange.tRetx_ne_zero (h : p.InRange) : p.tRetx ≠ 0 := by
  obtain ⟨-, -, -, -, hne⟩ := h
  exact hne

end

end Sys2Proof

namespace Sys2Proof.Machine

/-! ### The core invariant and the elements it reads -/

/-- State.Inv without the two parts that an instruction suspends while it works. -/
structure State.CoreInv (s : State) : Prop where
  params : s.cfg.InRange
  rx : s.RxInv
  window : s.WindowInv
  timers : s.TimerInv

/-- The elements that CoreInv reads. -/
structure SameCore (s t : State) : Prop where
  cfg : t.cfg = s.cfg
  rxBuf : t.rxBuf = s.rxBuf
  rxLen : t.rxLen = s.rxLen
  rxOvr : t.rxOvr = s.rxOvr
  crcRx : t.crcRx = s.crcRx
  txSeq : t.txSeq = s.txSeq
  winSlot : t.winSlot = s.winSlot
  winAck : t.winAck = s.winAck
  winTx : t.winTx = s.winTx
  inFifo : t.inFifo = s.inFifo
  lt : t.lt = s.lt
  rt : t.rt = s.rt
  link : t.link = s.link

section
variable {s t : State}

theorem State.Inv.core (h : s.Inv) : s.CoreInv := ⟨h.params, h.rx, h.window, h.timers⟩

theorem State.CoreInv.congr (h : s.CoreInv) (e : SameCore s t) : t.CoreInv where
  params := e.cfg ▸ h.params
  rx := h.rx.congr e.rxBuf e.rxLen e.rxOvr e.crcRx e.cfg
  window := h.window.congr e.txSeq e.winSlot e.winAck e.winTx e.inFifo e.cfg
  timers := h.timers.congr e.lt e.rt e.link e.winAck e.winTx

/-- Nothing the invariant reads has changed, but that a pending acknowledgment or its delivery may be over. -/
theorem State.Inv.congr (h : s.Inv) (e : SameCore s t) (hshake : t.ackPend = true → t.dispPend = true ∧ t.link = .up) :
    t.Inv := by
  have core := h.core.congr e
  refine ⟨core.params, core.rx, core.window, core.timers, hshake, ?_⟩
  rw [e.link, e.inFifo, winCount_congr e.winTx e.winAck, e.cfg]
  exact h.drained

theorem State.CoreInv.inv_of_notUp (h : s.CoreInv) (hl : s.link ≠ .up) (hack : s.ackPend = false) : s.Inv :=
  ⟨h.params, h.rx, h.window, h.timers, fun hp => absurd hp (ne_true_of_eq_false hack), fun hup => absurd hup hl⟩

/-! ### Timers -/

theorem timer_off_iff : Timer.off.armed = true ↔ Timer.off.cnt ≠ 0 := ⟨nofun, fun h => absurd rfl h⟩

theorem timer_armed_iff {n : U16} (hn : n ≠ 0) :
    ({ armed := true, cnt := n } : Timer).armed = true ↔ ({ armed := true, cnt := n } : Timer).cnt ≠ 0 :=
  ⟨fun _ => hn, fun _ => rfl⟩

theorem State.CoreInv.armRT (h : s.CoreInv) {n : U16} (hn : n ≠ 0) (hup : s.link = .up) (hwaiting : 0 < winCount s) :
    State.CoreInv { s with rt := { armed := true, cnt := n } } where
  params := h.params
  rx := h.rx.congr rfl rfl rfl rfl rfl
  window := h.window.congr rfl rfl rfl rfl rfl rfl
  timers := ⟨h.timers.lt, fun _ => ⟨hup, hwaiting⟩, h.timers.ltCount, timer_armed_iff hn⟩

theorem State.CoreInv.rtOff (h : s.CoreInv) : State.CoreInv { s with rt := .off } where
  params := h.params
  rx := h.rx.congr rfl rfl rfl rfl rfl
  window := h.window.congr rfl rfl rfl rfl rfl rfl
  timers := ⟨h.timers.lt, nofun, h.timers.ltCount, timer_off_iff⟩

theorem State.CoreInv.armLT (h : s.CoreInv) {n : U16} (hn : n ≠ 0) (hl : s.link = .connecting) :
    State.CoreInv { s with lt := { armed := true, cnt := n } } where
  params := h.params
  rx := h.rx.congr rfl rfl rfl rfl rfl
  window := h.window.congr rfl rfl rfl rfl rfl rfl
  timers := ⟨fun _ => hl, h.timers.rt, timer_armed_iff hn, h.timers.rtCount⟩

theorem State.CoreInv.ltOff (h : s.CoreInv) : State.CoreInv { s with lt := .off } where
  params := h.params
  rx := h.rx.congr rfl rfl rfl rfl rfl
  window := h.window.congr rfl rfl rfl rfl rfl rfl
  timers := ⟨nofun, h.timers.rt, timer_off_iff, h.timers.rtCount⟩

/-- send_I restarts RT, which its callers may do: they are Up with a packet in the window (R225, R37 item 5). -/
theorem State.CoreInv.sendI (h : s.CoreInv) (i : U3) (hup : s.link = .up) (hwaiting : 0 < winCount s) :
    (sendI i s).CoreInv :=
  (h.armRT h.params.tRetx_ne_zero hup hwaiting).congr (by constructor <;> rfl)

theorem State.CoreInv.linkExpiry (h : s.CoreInv) : (linkExpiry s).CoreInv := by
  by_cases hl : s.link = .connecting
  · rw [linkExpiry_connecting hl]
    exact (h.armLT h.params.tLink_ne_zero hl).congr (by constructor <;> rfl)
  · rwa [linkExpiry_notConnecting hl]

theorem State.CoreInv.retxExpiry (h : s.CoreInv) : (retxExpiry s).CoreInv := by
  rw [Machine.retxExpiry]
  split_ifs with hcond
  · exact (h.sendI s.winAck hcond.1 hcond.2).congr (by constructor <;> rfl)
  · exact h

theorem State.CoreInv.tickLT (h : s.CoreInv) : (tickLT s).CoreInv := by
  rw [Machine.tickLT]
  split_ifs with harmed hlast
  · exact h.ltOff.linkExpiry
  · exact h.armLT hlast (h.timers.lt harmed)
  · exact h

theorem State.CoreInv.tickRT (h : s.CoreInv) : (tickRT s).CoreInv := by
  rw [Machine.tickRT]
  split_ifs with harmed hlast
  · exact h.rtOff.retxExpiry
  · obtain ⟨hup, hwaiting⟩ := h.timers.rt harmed
    exact h.armRT hlast hup hwaiting
  · exact h

/-! ### The window -/

/-- One more packet in the window: the slot at WIN_TX, and no other, is now filled as well. -/
theorem winIndex_push {i ack tx : U3} {k : Nat} (hk : (tx - ack).toNat = k) :
    (i - ack).toNat < k + 1 ↔ i = tx ∨ (i - ack).toNat < k := by
  bv_omega

/-- Packets up to n released: of the filled slots those from n on remain. -/
theorem winIndex_ack {i ack tx n : U3} (hn : (n - ack).toNat ≤ (tx - ack).toNat) :
    (i - n).toNat < (tx - n).toNat ↔ ¬(i - ack).toNat < (n - ack).toNat ∧ (i - ack).toNat < (tx - ack).toNat := by
  bv_omega

/-- win_queue on the window (R221). -/
theorem State.WindowInv.push {q : Packet} {rest : List Packet} (h : s.WindowInv) (hfifo : s.inFifo = q :: rest)
    (hroom : winCount s < s.cfg.allowedInTransit) (longer : winCount t = winCount s + 1) (cfg : t.cfg = s.cfg)
    (seq : t.txSeq = t.winTx) (ack : t.winAck = s.winAck) (slot : t.winSlot = setSlot s.winSlot s.winTx (some q))
    (fifo : t.inFifo = rest) : t.WindowInv := by
  have fits : ∀ p ∈ q :: rest, p.length ≤ s.cfg.maxPayload := hfifo ▸ h.fifoLength
  refine ⟨seq, ?count, fun i => ?slots, fun i p hp => ?slotLength, ?fifo, ?fifoLength⟩
  case count =>
    rw [longer, cfg]
    exact hroom
  case slots =>
    rw [longer, slot, ack, winCount, winIndex_push rfl, slotAt_setSlot, ← winCount, ← h.slots i]
    by_cases hi : i = s.winTx <;> simp [hi]
  case slotLength =>
    rw [slot, slotAt_setSlot] at hp
    rw [cfg]
    split_ifs at hp
    · obtain rfl := Option.some.inj hp
      exact fits _ List.mem_cons_self
    · exact h.slotLength i p hp
  case fifo =>
    have depth := h.fifo
    rw [hfifo] at depth
    rw [fifo, cfg]
    exact Nat.le_of_succ_le depth
  case fifoLength =>
    rw [fifo, cfg]
    exact fun p hp => fits p (List.mem_cons_of_mem q hp)

/-- One turn of drain (R227). -/
theorem State.CoreInv.sendNew {q : Packet} {rest : List Packet} (h : s.CoreInv) (hfifo : s.inFifo = q :: rest)
    (hup : s.link = .up) (hroom : winCount s < s.cfg.allowedInTransit) :
    (sendNew q { s with inFifo := rest }).CoreInv := by
  have hfree : winCount s < 7 := hroom.trans_le h.params.allowedInTransit_le
  have ht := sendNew_eq q { s with inFifo := rest } (winTx_add_one_ne_winAck hfree)
  generalize Machine.sendNew q { s with inFifo := rest } = t at ht
  have longer : winCount t = winCount s + 1 := winCount_succ hfree (by rw [ht]) (by rw [ht])
  have window : t.WindowInv := h.window.push hfifo hroom longer (by rw [ht]) (by rw [ht]) (by rw [ht]) (by rw [ht])
    (by rw [ht])
  have waiting : 0 < winCount t := longer ▸ Nat.succ_pos _
  refine ⟨by rw [ht]; exact h.params, h.rx.congr (by rw [ht]) (by rw [ht]) (by rw [ht]) (by rw [ht]) (by rw [ht]),
    window, ?timers⟩
  case timers =>
    refine ⟨?_, fun _ => ⟨by rw [ht]; exact hup, waiting⟩, ?_, ?_⟩
    · rw [ht]
      exact h.timers.lt
    · rw [ht]
      exact h.timers.ltCount
    · rw [ht]
      exact timer_armed_iff h.params.tRetx_ne_zero

/-- What holds before drain and along its turns holds after it, and its loop has ended for want of room or packets. -/
theorem drain_induction {P : State → Prop}
    (turn : ∀ (s : State) (q : Packet) (rest : List Packet), P s → s.inFifo = q :: rest → s.link = .up →
      winCount s < s.cfg.allowedInTransit → P (Machine.sendNew q { s with inFifo := rest }))
    (h : P s) :
    P (drain s) ∧
      ¬((drain s).link = .up ∧ (drain s).inFifo ≠ [] ∧ winCount (drain s) < (drain s).cfg.allowedInTransit) := by
  induction hn : s.inFifo.length generalizing s with
  | zero =>
    have nothing : ¬(s.link = .up ∧ s.inFifo ≠ [] ∧ winCount s < s.cfg.allowedInTransit) :=
      fun hcond => hcond.2.1 (List.length_eq_zero_iff.1 hn)
    rw [drain_stop nothing]
    exact ⟨h, nothing⟩
  | succ n ih =>
    by_cases hcond : s.link = .up ∧ s.inFifo ≠ [] ∧ winCount s < s.cfg.allowedInTransit
    · obtain ⟨hup, hwaiting, hroom⟩ := hcond
      obtain ⟨q, rest, hfifo⟩ := List.exists_cons_of_ne_nil hwaiting
      rw [drain_turn hfifo hup hroom]
      refine ih (turn s q rest h hfifo hup hroom) ?_
      rw [sendNew_inFifo]
      rw [hfifo] at hn
      exact Nat.succ.inj hn
    · rw [drain_stop hcond]
      exact ⟨h, hcond⟩

theorem State.CoreInv.drain (h : s.CoreInv) : (drain s).CoreInv :=
  (drain_induction (fun _ _ _ h => h.sendNew) h).1

/-- R37 item 7, which drain is for. -/
theorem State.CoreInv.drained (h : s.CoreInv) (hup : (Machine.drain s).link = .up)
    (hwaiting : (Machine.drain s).inFifo ≠ []) :
    winCount (Machine.drain s) = (Machine.drain s).cfg.allowedInTransit := by
  obtain ⟨core, ended⟩ := drain_induction (fun _ _ _ h => h.sendNew) h
  exact core.window.count.antisymm (Nat.not_lt.1 fun hroom => ended ⟨hup, hwaiting, hroom⟩)

theorem sendNew_ackPend (q : Packet) (s : State) : (Machine.sendNew q s).ackPend = false := rfl

/-- drain pays an owed acknowledgment with its first frame, and owes none of its own (R225). -/
theorem drain_ackPend (h : (Machine.drain s).ackPend = true) : s.ackPend = true := by
  have kept := (drain_induction (P := fun t => t.ackPend = true → s.ackPend = true)
    (fun t q rest _ _ _ _ hp => absurd hp (ne_true_of_eq_false (sendNew_ackPend q { t with inFifo := rest }))) id).1
  exact kept h

/-- An instruction that ends in drain restores the drained window. -/
theorem State.CoreInv.inv_drain (h : s.CoreInv) (hshake : s.ackPend = true → s.dispPend = true ∧ s.link = .up) :
    (Machine.drain s).Inv := by
  have core := h.drain
  refine ⟨core.params, core.rx, core.window, core.timers, fun hp => ?_, h.drained⟩
  rw [drain_dispPend, drain_link]
  exact hshake (drain_ackPend hp)

/-- ack_up_to with a valid N(R) (R224). -/
theorem State.CoreInv.ackUpTo {n : U3} (h : s.CoreInv) (hack : ackUpTo n s = some t) : t.CoreInv := by
  have hvalid := nrValid_of_ackUpTo_eq_some hack
  obtain ⟨v, e, slots⟩ := ackUpTo_valid hvalid
  obtain rfl := Option.some.inj (e.symm.trans hack)
  have inWindow : (n - s.winAck).toNat ≤ (s.winTx - s.winAck).toNat := (nrValid_iff s n).1 hvalid
  have fewer : (s.winTx - n).toNat ≤ winCount s := by
    unfold winCount
    bv_omega
  refine ⟨h.params, h.rx.congr rfl rfl rfl rfl rfl,
    ⟨h.window.txSeq, fewer.trans h.window.count, fun i => ?slots, fun i p hp => ?slotLength, h.window.fifo,
      h.window.fifoLength⟩,
    ⟨h.timers.lt, ?rt, h.timers.ltCount, ?rtCount⟩⟩
  case slots =>
    refine Iff.trans ?_ (winIndex_ack inWindow).symm
    rw [slots i, ← winCount, ← h.window.slots i]
    split_ifs with hreleased
    · exact ⟨nofun, fun ⟨hkept, _⟩ => absurd hreleased hkept⟩
    · exact ⟨fun hfilled => ⟨hreleased, hfilled⟩, And.right⟩
  case slotLength =>
    rw [slots i] at hp
    split_ifs at hp
    · cases hp
    · exact h.window.slotLength i p hp
  case rt =>
    show (if s.winTx = n then Timer.off else s.rt).armed = true → s.link = .up ∧ 0 < (s.winTx - n).toNat
    split_ifs with hempty
    · exact nofun
    · exact fun harmed => ⟨(h.timers.rt harmed).1, by bv_omega⟩
  case rtCount =>
    show (if s.winTx = n then Timer.off else s.rt).armed = true ↔ (if s.winTx = n then Timer.off else s.rt).cnt ≠ 0
    split_ifs
    · exact timer_off_iff
    · exact h.timers.rtCount

theorem State.CoreInv.ackUpTo_getD (nr : U3) {d : State} (h : s.CoreInv) (hd : d.CoreInv) :
    ((Machine.ackUpTo nr s).getD d).CoreInv := by
  cases hack : Machine.ackUpTo nr s with
  | none => exact hd
  | some t => exact h.ackUpTo hack

theorem ackUpTo_ackPend {n : U3} (hack : Machine.ackUpTo n s = some t) :
    t.ackPend = s.ackPend ∧ t.dispPend = s.dispPend ∧ t.link = s.link := by
  obtain ⟨v, e, -⟩ := ackUpTo_valid (nrValid_of_ackUpTo_eq_some hack)
  obtain rfl := Option.some.inj (e.symm.trans hack)
  exact ⟨rfl, rfl, rfl⟩

theorem State.CoreInv.resendWindow (h : s.CoreInv) (hup : s.link = .up) : (resendWindow s).CoreInv := by
  have e := resendN_eq (winCount s) s.winAck s
  rw [Machine.resendWindow]
  generalize resendN (winCount s) s.winAck s = t at e
  by_cases hempty : winCount s = 0
  · refine h.congr ?_
    rw [e, if_pos hempty, if_pos hempty]
    constructor <;> rfl
  · refine (h.armRT h.params.tRetx_ne_zero hup (Nat.pos_of_ne_zero hempty)).congr ?_
    rw [e, if_neg hempty, if_neg hempty]
    constructor <;> rfl

theorem resendWindow_ackPend (h : (Machine.resendWindow s).ackPend = true) : s.ackPend = true := by
  rw [Machine.resendWindow, resendN_eq] at h
  dsimp only at h
  split_ifs at h
  exact h

theorem resendWindow_dispPend (s : State) : (Machine.resendWindow s).dispPend = s.dispPend := by
  rw [Machine.resendWindow, resendN_eq]

/-! ### The sequence reset and LINK -/

theorem winCount_seqReset (s : State) : winCount (seqReset s) = 0 := by
  simp [winCount]

theorem State.WindowInv.seqReset (h : s.WindowInv) : (seqReset s).WindowInv where
  txSeq := rfl
  count := (winCount_seqReset s).trans_le (Nat.zero_le _)
  slots i := by
    rw [winCount_seqReset, seqReset_winSlot, slotAt_empty]
    exact ⟨nofun, fun hi => absurd hi (Nat.not_lt_zero _)⟩
  slotLength i p hp := by
    rw [seqReset_winSlot, slotAt_empty] at hp
    cases hp
  fifo := h.fifo
  fifoLength := h.fifoLength

/-- seq_reset empties the window and stops RT (R190), so that LINK may become anything that LT allows. -/
theorem State.CoreInv.seqReset (h : s.CoreInv) {l : Link} {lt : Timer} (hlt : lt.armed = true → l = .connecting)
    (hcount : lt.armed = true ↔ lt.cnt ≠ 0) : (seqReset { s with link := l, lt := lt }).CoreInv where
  params := h.params
  rx := h.rx.congr rfl rfl rfl rfl rfl
  window := State.WindowInv.seqReset (h.window.congr rfl rfl rfl rfl rfl rfl)
  timers := ⟨hlt, nofun, hcount, timer_off_iff⟩

theorem State.CoreInv.goDown (h : s.CoreInv) (r : LinkDownReason) : (goDown r s).Inv :=
  State.CoreInv.inv_of_notUp
    ((h.seqReset (l := .down) (lt := .off) nofun timer_off_iff).congr (by constructor <;> rfl)) nofun rfl

/-- go_up from Connecting, where no packet is in flight (R197, R192). -/
theorem State.Inv.goUp (h : s.Inv) (hl : s.link = .connecting) : (goUp s).Inv := by
  have notArmed : s.rt.armed = true → False := fun harmed => by
    have := (h.timers.rt harmed).1.symm.trans hl
    cases this
  have noAck : s.ackPend = true → False := fun hp => by
    have := (h.handshake hp).2.symm.trans hl
    cases this
  rw [goUp_eq]
  refine State.CoreInv.inv_drain ⟨h.params, h.rx.congr rfl rfl rfl rfl rfl, h.window.congr rfl rfl rfl rfl rfl rfl,
    ⟨nofun, fun harmed => absurd harmed notArmed, timer_off_iff, h.timers.rtCount⟩⟩ fun hp => absurd hp noAck

/-! ### Received frames -/

theorem State.Inv.count (h : s.Inv) (c : Counter) : (count c s).Inv :=
  h.congr (by constructor <;> rfl) h.handshake

theorem State.Inv.sendU (h : s.Inv) (code : Byte) : (sendU code s).Inv :=
  h.congr (by constructor <;> rfl) h.handshake

theorem State.Inv.handleI (h : s.Inv) (ns nr : U3) (p : Packet) : (handleI ns nr p s).Inv := by
  by_cases hup : s.link = .up
  · by_cases hns : ns = s.rxNext
    · subst hns
      rw [handleI_inSequence hup]
      have acked := h.core.ackUpTo_getD nr (h.count .badNr).core
      have link := (ackUpTo_getD_sameLinkRxNext s nr (d := Machine.count .badNr s) ⟨rfl, rfl⟩).1.trans hup
      generalize (Machine.ackUpTo nr s).getD (Machine.count .badNr s) = a at acked link
      have accepted : (acceptNext a).CoreInv := acked.congr (by constructor <;> rfl)
      have core : (deliver (.deliverPkt p) (Machine.drain (acceptNext a))).CoreInv :=
        accepted.drain.congr (by constructor <;> rfl)
      exact ⟨core.params, core.rx, core.window, core.timers, fun _ => ⟨rfl, (drain_link _).trans link⟩,
        accepted.drained⟩
    · rw [handleI_outOfSequence hup hns]
      exact h.congr (by constructor <;> rfl) nofun
  · rw [handleI_notUp hup]
    exact h.count .notUpDrop

theorem State.Inv.guardS (h : s.Inv) (nr : U3) {act : State → State} (hact : s.link = .up → (act s).Inv) :
    (guardS nr act s).Inv := by
  rw [Machine.guardS]
  split_ifs with hup
  · exact h.count .notUpDrop
  · exact hact (not_not.1 hup)
  · exact h.count .badNr

/-- What the acknowledgment of an S-frame leaves of the handshake. -/
theorem State.Inv.handshake_ackUpTo (h : s.Inv) (nr : U3) (hp : ((Machine.ackUpTo nr s).getD s).ackPend = true) :
    ((Machine.ackUpTo nr s).getD s).dispPend = true ∧ ((Machine.ackUpTo nr s).getD s).link = .up := by
  cases hack : Machine.ackUpTo nr s with
  | none =>
    rw [hack] at hp
    exact h.handshake hp
  | some t =>
    obtain ⟨hpend, hdisp, hlink⟩ := ackUpTo_ackPend hack
    rw [hack, Option.getD_some, hpend] at hp
    rw [Option.getD_some, hdisp, hlink]
    exact h.handshake hp

theorem State.Inv.ackAndDrain (h : s.Inv) (nr : U3) : (ackAndDrain nr s).Inv :=
  (h.core.ackUpTo_getD nr h.core).inv_drain (h.handshake_ackUpTo nr)

theorem State.Inv.ackAndResend (h : s.Inv) (nr : U3) (hup : s.link = .up) : (ackAndResend nr s).Inv := by
  have acked := h.core.ackUpTo_getD nr h.core
  have shake := h.handshake_ackUpTo nr
  have link := (ackUpTo_getD_sameLinkRxNext s nr (d := s) ⟨rfl, rfl⟩).1.trans hup
  simp only [Machine.ackAndResend]
  generalize (Machine.ackUpTo nr s).getD s = a at acked shake link
  split_ifs
  · refine (acked.resendWindow link).inv_drain fun hp => ?_
    rw [resendWindow_dispPend, (resendWindow_sameLinkRxNext a).1]
    exact shake (resendWindow_ackPend hp)
  · exact acked.inv_drain shake

theorem State.Inv.handleS (h : s.Inv) (fn : BitVec 2) (nr : U3) : (handleS fn nr s).Inv := by
  have drains := h.guardS nr fun _ => h.ackAndDrain nr
  have resends := h.guardS nr (h.ackAndResend nr)
  rw [Machine.handleS]
  split_ifs
  exacts [drains, drains, resends, resends]

theorem State.Inv.recvSnrm (h : s.Inv) : (recvSnrm s).Inv := by
  rw [Machine.recvSnrm, goUp_eq]
  refine State.CoreInv.inv_drain ?_ nofun
  exact (h.core.seqReset (l := .up) (lt := .off) nofun timer_off_iff).congr (by constructor <;> rfl)

theorem State.Inv.recvUi (h : s.Inv) (p : Packet) : (recvUi p s).Inv :=
  h.congr (by constructor <;> rfl) fun hp => ⟨rfl, (h.handshake hp).2⟩

theorem State.Inv.handleU (h : s.Inv) (code : Byte) (p : Packet) : (handleU code p s).Inv := by
  simp only [Machine.handleU, recvUa, recvDm, recvDisc_eq, recvUnknownU]
  split_ifs with _ _ hconnecting
  · exact h.recvSnrm
  · exact h.goUp hconnecting
  · exact h
  · exact h.core.goDown .peerDm
  · exact h
  · exact h.sendU codeUA
  · exact (h.sendU codeUA).core.goDown .peerDisc
  · exact h.recvUi p
  · exact (h.sendU codeDM).core.goDown .unknownU
  · exact h

theorem State.Inv.classify (h : s.Inv) (ctrl : Byte) (p : Packet) : (classify ctrl p s).Inv := by
  rw [Machine.classify]
  split_ifs
  exacts [h.handleI _ _ p, h.handleS _ _, h.handleU _ p]

/-! ### Line bytes -/

theorem State.RxInv.rxOpen (h : s.RxInv) : (rxOpen s).RxInv where
  canonical := h.canonical
  addresses := h.addresses
  length := Nat.zero_le _
  written a ha := absurd ha (Nat.not_lt_zero a)
  crc := rfl
  overrun := nofun

/-- A stored byte goes below the new RX_LEN and into CRC_RX; a dropped one finds RX_BUF full (R148). -/
theorem State.RxInv.rxStore (h : s.RxInv) (b : Byte) : (rxStore b s).RxInv := by
  by_cases hroom : s.rxLen < s.cfg.maxFrame
  · have kept : ∀ a < s.rxLen, rxRead (rxWrite s.rxLen b s) a = rxRead s a := fun a ha => by
      rw [rxRead_rxWrite, if_neg ha.ne]
    rw [rxStore_room b hroom]
    refine ⟨Memory.write_wf _ _ h.canonical, fun c hc => ?addresses, hroom, fun a ha => ?written, ?crc,
      fun hovr => absurd (h.overrun hovr) hroom.ne⟩
    case addresses =>
      obtain rfl | hold := Memory.mem_write hc
      · exact hroom
      · exact h.addresses c hold
    case written =>
      show (Memory.read (Memory.write s.rxBuf s.rxLen b) a).isSome = true
      rw [Memory.read_write]
      split_ifs with heq
      · rfl
      · exact h.written a (Nat.lt_of_le_of_ne (Nat.le_of_lt_succ ha) heq)
    case crc =>
      show crcUpdateX s.cfg.crcVariant s.crcRx b =
        crcFold s.cfg.crcVariant crcResetX ((List.range (s.rxLen + 1)).map (rxRead (rxWrite s.rxLen b s)))
      have old : (List.range s.rxLen).map (rxRead (rxWrite s.rxLen b s)) = (List.range s.rxLen).map (rxRead s) :=
        List.map_congr_left fun a ha => kept a (List.mem_range.1 ha)
      have new : rxRead (rxWrite s.rxLen b s) s.rxLen = b := by rw [rxRead_rxWrite, if_pos rfl]
      rw [List.range_succ, List.map_append, crcFold_append, old, ← h.crc, List.map_singleton, new]
      rfl
  · have hfull := Nat.not_lt.1 hroom
    rw [rxStore_full b hfull]
    exact ⟨h.canonical, h.addresses, h.length, h.written, h.crc, fun _ => h.length.antisymm hfull⟩

/-- The receive path and RX_STATE are no part of what the rest of the invariant reads. -/
theorem State.Inv.of_rx (h : s.Inv) (rx : t.RxInv) (e : t = { s with
    rxState := t.rxState, rxBuf := t.rxBuf, rxLen := t.rxLen, rxOvr := t.rxOvr, crcRx := t.crcRx }) : t.Inv := by
  rw [e] at rx ⊢
  exact ⟨h.params, rx, h.window.congr rfl rfl rfl rfl rfl rfl, h.timers.congr rfl rfl rfl rfl rfl, h.handshake,
    h.drained⟩

theorem LineByteWork.inv {b : Byte} (work : LineByteWork s b t) (h : s.Inv) : t.Inv := by
  have idle : State.Inv { s with rxState := .idle } := h.congr (by constructor <;> rfl) h.handshake
  cases work with
  | none => exact h
  | opened => exact h.of_rx (h.rx.rxOpen.congr rfl rfl rfl rfl rfl) rfl
  | escape => exact h.congr (by constructor <;> rfl) h.handshake
  | stored _ c =>
    refine h.of_rx ((h.rx.rxStore c).congr rfl rfl rfl rfl rfl) ?_
    rw [Machine.rxStore]
    split_ifs <;> rfl
  | dropped c => exact idle.count c
  | ran => exact idle.classify _ _

/-! ### Every instruction -/

/-- What the timers' service leaves of the elements that items 6 and 7 read; a resent I-frame pays an owed
acknowledgment (R225, R264). -/
structure SameDispatch (s t : State) : Prop where
  cfg : t.cfg = s.cfg
  link : t.link = s.link
  inFifo : t.inFifo = s.inFifo
  winAck : t.winAck = s.winAck
  winTx : t.winTx = s.winTx
  dispPend : t.dispPend = s.dispPend
  ackPend : t.ackPend = true → s.ackPend = true

theorem tickLT_sameDispatch (s : State) : SameDispatch s (Machine.tickLT s) := by
  rw [Machine.tickLT, Machine.linkExpiry]
  split_ifs <;> exact ⟨rfl, rfl, rfl, rfl, rfl, rfl, id⟩

theorem tickRT_sameDispatch (s : State) : SameDispatch s (Machine.tickRT s) := by
  rw [Machine.tickRT, Machine.retxExpiry]
  split_ifs
  · exact ⟨rfl, rfl, rfl, rfl, rfl, rfl, nofun⟩
  · exact ⟨rfl, rfl, rfl, rfl, rfl, rfl, id⟩
  · exact ⟨rfl, rfl, rfl, rfl, rfl, rfl, id⟩
  · exact ⟨rfl, rfl, rfl, rfl, rfl, rfl, id⟩

theorem State.Inv.of_core (h : s.Inv) (core : t.CoreInv) (e : SameDispatch s t) : t.Inv := by
  refine ⟨core.params, core.rx, core.window, core.timers, fun hp => ?_, ?_⟩
  · rw [e.dispPend, e.link]
    exact h.handshake (e.ackPend hp)
  · rw [e.link, e.inFifo, winCount_congr e.winTx e.winAck, e.cfg]
    exact h.drained

theorem State.Inv.tick (h : s.Inv) : (Machine.tickRT (Machine.tickLT s)).Inv := by
  have afterLT : (Machine.tickLT s).Inv := h.of_core h.core.tickLT (tickLT_sameDispatch s)
  exact afterLT.of_core afterLT.core.tickRT (tickRT_sameDispatch _)

theorem State.Inv.submit (h : s.Inv) {p : Packet} (hfits : p.length ≤ s.cfg.maxPayload)
    (hroom : s.inFifo.length ≠ s.cfg.inFifoDepth) : (Machine.drain { s with inFifo := s.inFifo ++ [p] }).Inv := by
  have fifo : (s.inFifo ++ [p]).length ≤ s.cfg.inFifoDepth := by
    have := h.window.fifo
    rw [List.length_append, List.length_singleton]
    omega
  have fits : ∀ q ∈ s.inFifo ++ [p], q.length ≤ s.cfg.maxPayload :=
    List.forall_mem_append.2 ⟨h.window.fifoLength, List.forall_mem_singleton.2 hfits⟩
  refine State.CoreInv.inv_drain ⟨h.params, h.rx.congr rfl rfl rfl rfl rfl, ?_, h.timers.congr rfl rfl rfl rfl rfl⟩
    h.handshake
  exact ⟨h.window.txSeq, h.window.count, h.window.slots, h.window.slotLength, fifo, fits⟩

theorem CommandWork.inv {i : Instr} (work : CommandWork s i t) (h : s.Inv) : t.Inv := by
  cases work with
  | none => exact h
  | softReset => exact (resetWith_inv h.params).congr (by constructor <;> rfl) nofun
  | crcReset | crcUpdate => exact h.congr (by constructor <;> rfl) h.handshake
  | connect =>
    exact State.CoreInv.inv_of_notUp
      ((h.core.seqReset (l := .connecting) (fun _ => rfl) (timer_armed_iff h.params.tLink_ne_zero)).congr
        (by constructor <;> rfl)) nofun rfl
  | disconnect => exact (h.sendU codeDISC).core.goDown .loc
  | submit hfits hroom => exact h.submit hfits hroom
  | dispatchOwed | dispatchNotOwed => exact h.congr (by constructor <;> rfl) nofun
  | tick => exact h.tick

theorem State.Inv.respond (h : s.Inv) (st : Status) (data : List Byte) : (respond st data s).Inv :=
  h.congr (by constructor <;> rfl) h.handshake

theorem exec_inv {i : Instr} (h : s.Inv) (hexec : exec i s = .next t) : t.Inv := by
  cases exec_work hexec with
  | frame _ ctrl p => exact h.classify ctrl p
  | lineByte st work => exact (work.inv h).respond st []
  | command st data work => exact (work.inv h).respond st data

/-- The command stream is no part of the invariant. -/
theorem State.Inv.setInput (h : s.Inv) (input : List Byte) : State.Inv { s with input := input } :=
  h.congr (by constructor <;> rfl) h.handshake

end

/-- Settles O56: a step that answers a next state runs one instruction. -/
theorem stepKeepsInvariant : Obligations.StepKeepsInvariant := by
  unfold Obligations.StepKeepsInvariant
  intro s t h hstep
  cases hdecode : decode s.input with
  | ok r =>
    rw [step_of_decode (i := r.1) (rest := r.2) hdecode] at hstep
    exact exec_inv (h.setInput r.2) hstep
  | error e =>
    by_cases hinput : s.input = []
    · cases (step_of_no_input hinput).symm.trans hstep
    · cases (step_of_incomplete hinput hdecode).symm.trans hstep

/-- An instruction stops only where a frame would complete with RX_LEN above P_MAX_FRAME (log entry 7). -/
theorem exec_completes {s : State} (h : s.rxLen ≤ s.cfg.maxFrame) (i : Instr) : ∃ t, exec i s = .next t := by
  cases hi : i.isFrame with
  | true =>
    obtain ⟨ctrl, p, hrun⟩ := exec_frame hi
    exact ⟨_, hrun s⟩
  | false =>
    cases i with
    | rxByte b =>
      cases hd : s.dispPend with
      | true => exact ⟨_, exec_rxByte_busy hd b⟩
      | false =>
        obtain ⟨t, ht⟩ := rxAccept_ok b h
        exact ⟨_, exec_rxByte_ok hd ht⟩
    | connect =>
      rw [exec, execConnect]
      split_ifs <;> exact ⟨_, rfl⟩
    | disconnect =>
      rw [exec, execDisconnect]
      split_ifs <;> exact ⟨_, rfl⟩
    | submit p =>
      rw [exec, execSubmit]
      split_ifs <;> exact ⟨_, rfl⟩
    | dispatchDone =>
      rw [exec, execDispatchDone]
      split_ifs <;> exact ⟨_, rfl⟩
    | tick =>
      rw [exec, execTick]
      split_ifs <;> exact ⟨_, rfl⟩
    | readReg b =>
      cases hv : regValue s b with
      | none => exact ⟨_, exec_readReg_of_none hv⟩
      | some v => exact ⟨_, exec_readReg_of_some hv⟩
    | nop | softReset | crcReset | crcUpdate | crcGet | crcGetLast | stuff | reserved => exact ⟨_, rfl⟩
    | iFrame | rr | rnr | rej | srej | snrm | ua | dm | disc | ui | uUnknown => cases hi

/-- Settles O57. -/
theorem wholeCommandsAlwaysComplete : Obligations.WholeCommandsAlwaysComplete := by
  unfold Obligations.WholeCommandsAlwaysComplete
  intro s i rest h hdecode
  obtain ⟨t, ht⟩ := exec_completes (s := { s with input := rest }) h.rx.length i
  have hstep := (step_of_decode hdecode).trans ht
  exact ⟨t, hstep, (exec_writersKept ht).input, stepKeepsInvariant s t h hstep⟩

end Sys2Proof.Machine

/-!
SUPPORT. What RX_BUF holds at and above RX_LEN cannot be observed (10_state.md R24): every operation but the receive path's
own neither reads nor writes RX_BUF, and the receive path reads it below RX_LEN alone.
-/

namespace Sys2Proof.Machine

/-! ### Operations that neither read nor write RX_BUF -/

/-- s with another content of RX_BUF. -/
def withRxBuf (m : Memory) (s : State) : State := { s with rxBuf := m }

/-- g answers the same of a state whatever its RX_BUF, but for that RX_BUF itself, which `act` puts into the answer. -/
def IgnoresRxBuf {α : Type} (act : Memory → α → α) (g : State → α) : Prop :=
  ∀ m s, g (withRxBuf m s) = act m (g s)

/-- Another RX_BUF in the next state of an outcome. -/
def outcomeWithRxBuf (m : Memory) : Host.Outcome State Fault Refusal → Host.Outcome State Fault Refusal
  | .next t => .next (withRxBuf m t)
  | .fault f => .fault f
  | .refused r => .refused r

section
variable {α : Type} {act : Memory → α → α}

theorem IgnoresRxBuf.ite {c : State → Prop} [∀ s, Decidable (c s)] {f g : State → α}
    (hc : ∀ m s, c (withRxBuf m s) ↔ c s) (hf : IgnoresRxBuf act f) (hg : IgnoresRxBuf act g) :
    IgnoresRxBuf act fun s => if c s then f s else g s := by
  intro m s
  show (if c (withRxBuf m s) then f (withRxBuf m s) else g (withRxBuf m s)) = act m (if c s then f s else g s)
  by_cases h : c s
  · rw [if_pos h, if_pos ((hc m s).2 h), hf]
  · rw [if_neg h, if_neg (mt (hc m s).1 h), hg]

theorem IgnoresRxBuf.comp {f : State → State} {g : State → α} (hg : IgnoresRxBuf act g)
    (hf : IgnoresRxBuf withRxBuf f) : IgnoresRxBuf act fun s => g (f s) := fun m s =>
  (congrArg g (hf m s)).trans (hg m (f s))

theorem IgnoresRxBuf.next {f : State → State} (hf : IgnoresRxBuf withRxBuf f) :
    IgnoresRxBuf outcomeWithRxBuf fun s => .next (f s) := fun m s =>
  congrArg Host.Outcome.next (hf m s)

/-- What ignores RX_BUF leaves it as it was: put RX_BUF's own content for the other one. -/
theorem IgnoresRxBuf.next_rxBuf {g : State → Host.Outcome State Fault Refusal}
    (hg : IgnoresRxBuf outcomeWithRxBuf g) {s u : State} (hnext : g s = .next u) : u.rxBuf = s.rxBuf := by
  have keeps : g s = outcomeWithRxBuf s.rxBuf (g s) := hg s.rxBuf s
  rw [hnext] at keeps
  have same : u = withRxBuf s.rxBuf u := Host.Outcome.next.inj keeps
  calc u.rxBuf = (withRxBuf s.rxBuf u).rxBuf := congrArg State.rxBuf same
    _ = s.rxBuf := rfl

end

theorem id_ignoresRxBuf : IgnoresRxBuf withRxBuf fun s => s := fun _ _ => rfl

theorem count_ignoresRxBuf (c : Counter) : IgnoresRxBuf withRxBuf (count c) := fun _ _ => rfl

theorem sendU_ignoresRxBuf (code : Byte) : IgnoresRxBuf withRxBuf (sendU code) := fun _ _ => rfl

theorem goDown_ignoresRxBuf (r : LinkDownReason) : IgnoresRxBuf withRxBuf (goDown r) := fun _ _ => rfl

theorem respond_ignoresRxBuf (st : Status) (data : List Byte) : IgnoresRxBuf withRxBuf (respond st data) :=
  fun _ _ => rfl

/-! ### The window -/

theorem releaseN_ignoresRxBuf (k : Nat) : IgnoresRxBuf withRxBuf (releaseN k) := by
  induction k with
  | zero => exact id_ignoresRxBuf
  | succ k ih => exact ih.comp fun _ _ => rfl

theorem ackUpTo_ignoresRxBuf (n : U3) : IgnoresRxBuf (fun m => Option.map (withRxBuf m)) (ackUpTo n) := by
  intro m s
  have released := releaseN_ignoresRxBuf (n - s.winAck).toNat m s
  have same_count (t : State) : winCount (withRxBuf m t) = winCount t := rfl
  by_cases valid : nrValid s n
  · have valid' : nrValid (withRxBuf m s) n = true := valid
    have same_ack : (withRxBuf m s).winAck = s.winAck := rfl
    simp only [ackUpTo, if_pos valid, if_pos valid', same_ack, released, same_count]
    split_ifs <;> rfl
  · have invalid : nrValid s n = false := eq_false_of_ne_true valid
    have invalid' : nrValid (withRxBuf m s) n = false := invalid
    rw [ackUpTo_invalid invalid, ackUpTo_invalid invalid']
    rfl

theorem sendNew_ignoresRxBuf (p : Packet) : IgnoresRxBuf withRxBuf (sendNew p) := by
  intro m s
  by_cases full : s.winTx + 1 = s.winAck
  · have full' : (withRxBuf m s).winTx + 1 = (withRxBuf m s).winAck := full
    simp only [sendNew, winQueue, if_pos full, if_pos full']
    rfl
  · rw [sendNew_eq p s full, sendNew_eq p (withRxBuf m s) full]
    rfl

theorem drainN_ignoresRxBuf (k : Nat) : IgnoresRxBuf withRxBuf (drainN k) := by
  induction k with
  | zero => exact id_ignoresRxBuf
  | succ k ih =>
    intro m s
    by_cases turn : s.link = .up ∧ s.inFifo ≠ [] ∧ winCount s < s.cfg.allowedInTransit
    · obtain ⟨up, waiting, room⟩ := turn
      obtain ⟨p, rest, fifo⟩ := List.exists_cons_of_ne_nil waiting
      have fifo' : (withRxBuf m s).inFifo = p :: rest := fifo
      rw [drainN_turn k fifo up room, drainN_turn k fifo' up room, ← ih m]
      exact congrArg (drainN k) (sendNew_ignoresRxBuf p m { s with inFifo := rest })
    · have stop : ¬((withRxBuf m s).link = .up ∧ (withRxBuf m s).inFifo ≠ [] ∧
          winCount (withRxBuf m s) < (withRxBuf m s).cfg.allowedInTransit) := turn
      rw [drainN_stop (k + 1) turn, drainN_stop (k + 1) stop]

theorem drain_ignoresRxBuf : IgnoresRxBuf withRxBuf drain := fun m s => drainN_ignoresRxBuf s.inFifo.length m s

theorem resendN_ignoresRxBuf (k : Nat) (i : U3) : IgnoresRxBuf withRxBuf (resendN k i) := by
  induction k generalizing i with
  | zero => exact id_ignoresRxBuf
  | succ k ih => exact (ih (i + 1)).comp fun _ _ => rfl

theorem resendWindow_ignoresRxBuf : IgnoresRxBuf withRxBuf resendWindow := fun m s =>
  resendN_ignoresRxBuf (winCount s) s.winAck m s

/-! ### Received frames -/

theorem ackUpTo_getD_ignoresRxBuf (nr : U3) {d : State → State} (hd : IgnoresRxBuf withRxBuf d) :
    IgnoresRxBuf withRxBuf fun s => (ackUpTo nr s).getD (d s) := by
  intro m s
  show (ackUpTo nr (withRxBuf m s)).getD (d (withRxBuf m s)) = withRxBuf m ((ackUpTo nr s).getD (d s))
  rw [ackUpTo_ignoresRxBuf, hd]
  cases ackUpTo nr s <;> rfl

theorem handleI_ignoresRxBuf (ns nr : U3) (p : Packet) : IgnoresRxBuf withRxBuf (handleI ns nr p) := by
  have acked := ackUpTo_getD_ignoresRxBuf nr (count_ignoresRxBuf .badNr)
  have accepted := (drain_ignoresRxBuf.comp (f := acceptNext) fun _ _ => rfl).comp acked
  exact .ite (fun _ _ => Iff.rfl) (count_ignoresRxBuf .notUpDrop) <|
    .ite (fun _ _ => Iff.rfl) (fun _ _ => rfl) (.comp (g := deliver (.deliverPkt p)) (fun _ _ => rfl) accepted)

theorem guardS_ignoresRxBuf (nr : U3) {f : State → State} (hf : IgnoresRxBuf withRxBuf f) :
    IgnoresRxBuf withRxBuf (guardS nr f) :=
  .ite (fun _ _ => Iff.rfl) (count_ignoresRxBuf .notUpDrop) <|
    .ite (fun _ _ => Iff.rfl) hf (count_ignoresRxBuf .badNr)

theorem ackAndDrain_ignoresRxBuf (nr : U3) : IgnoresRxBuf withRxBuf (ackAndDrain nr) :=
  drain_ignoresRxBuf.comp (ackUpTo_getD_ignoresRxBuf nr id_ignoresRxBuf)

theorem ackAndResend_ignoresRxBuf (nr : U3) : IgnoresRxBuf withRxBuf (ackAndResend nr) := by
  have resent : IgnoresRxBuf withRxBuf fun t =>
      drain (if t.cfg.rejPolicy = .goBackN ∧ 0 < winCount t then resendWindow t else t) :=
    drain_ignoresRxBuf.comp (.ite (fun _ _ => Iff.rfl) resendWindow_ignoresRxBuf id_ignoresRxBuf)
  exact resent.comp (ackUpTo_getD_ignoresRxBuf nr id_ignoresRxBuf)

theorem handleS_ignoresRxBuf (fn : BitVec 2) (nr : U3) : IgnoresRxBuf withRxBuf (handleS fn nr) := by
  have drains := guardS_ignoresRxBuf nr (ackAndDrain_ignoresRxBuf nr)
  have resends := guardS_ignoresRxBuf nr (ackAndResend_ignoresRxBuf nr)
  exact .ite (fun _ _ => Iff.rfl) drains <| .ite (fun _ _ => Iff.rfl) drains <|
    .ite (fun _ _ => Iff.rfl) resends resends

theorem goUp_ignoresRxBuf : IgnoresRxBuf withRxBuf goUp := drain_ignoresRxBuf.comp fun _ _ => rfl

theorem handleU_ignoresRxBuf (code : Byte) (p : Packet) : IgnoresRxBuf withRxBuf (handleU code p) := by
  have snrm : IgnoresRxBuf withRxBuf recvSnrm := goUp_ignoresRxBuf.comp fun _ _ => rfl
  have ua : IgnoresRxBuf withRxBuf recvUa := .ite (fun _ _ => Iff.rfl) goUp_ignoresRxBuf id_ignoresRxBuf
  have dm : IgnoresRxBuf withRxBuf recvDm :=
    .ite (fun _ _ => Iff.rfl) (goDown_ignoresRxBuf .peerDm) id_ignoresRxBuf
  have disc : IgnoresRxBuf withRxBuf recvDisc := .ite (fun _ _ => Iff.rfl) (sendU_ignoresRxBuf codeUA)
    ((goDown_ignoresRxBuf .peerDisc).comp (sendU_ignoresRxBuf codeUA))
  have unknown : IgnoresRxBuf withRxBuf recvUnknownU := .ite (fun _ _ => Iff.rfl)
    ((goDown_ignoresRxBuf .unknownU).comp (sendU_ignoresRxBuf codeDM)) id_ignoresRxBuf
  exact .ite (fun _ _ => Iff.rfl) snrm <| .ite (fun _ _ => Iff.rfl) ua <| .ite (fun _ _ => Iff.rfl) dm <|
    .ite (fun _ _ => Iff.rfl) disc <| .ite (fun _ _ => Iff.rfl) (fun _ _ => rfl) unknown

theorem classify_ignoresRxBuf (ctrl : Byte) (p : Packet) : IgnoresRxBuf withRxBuf (classify ctrl p) :=
  .ite (fun _ _ => Iff.rfl) (handleI_ignoresRxBuf _ _ p) <|
    .ite (fun _ _ => Iff.rfl) (handleS_ignoresRxBuf _ _) (handleU_ignoresRxBuf _ p)

/-! ### Commands -/

theorem tickLT_ignoresRxBuf : IgnoresRxBuf withRxBuf tickLT := by
  have expiry : IgnoresRxBuf withRxBuf linkExpiry := .ite (fun _ _ => Iff.rfl) (fun _ _ => rfl) id_ignoresRxBuf
  have expired : IgnoresRxBuf withRxBuf fun s => linkExpiry { s with lt := .off } := expiry.comp fun _ _ => rfl
  exact .ite (fun _ _ => Iff.rfl) (.ite (fun _ _ => Iff.rfl) expired fun _ _ => rfl) id_ignoresRxBuf

theorem tickRT_ignoresRxBuf : IgnoresRxBuf withRxBuf tickRT := by
  have expiry : IgnoresRxBuf withRxBuf retxExpiry := .ite (fun _ _ => Iff.rfl) (fun _ _ => rfl) id_ignoresRxBuf
  have expired : IgnoresRxBuf withRxBuf fun s => retxExpiry { s with rt := .off } := expiry.comp fun _ _ => rfl
  exact .ite (fun _ _ => Iff.rfl) (.ite (fun _ _ => Iff.rfl) expired fun _ _ => rfl) id_ignoresRxBuf

theorem IgnoresRxBuf.responds {f : State → State} (hf : IgnoresRxBuf withRxBuf f) (st : Status) (data : List Byte) :
    IgnoresRxBuf outcomeWithRxBuf fun s => .next (respond st data (f s)) :=
  .next (.comp (respond_ignoresRxBuf st data) hf)

theorem answer_ignoresRxBuf (st : Status) (data : List Byte) :
    IgnoresRxBuf outcomeWithRxBuf fun s => .next (respond st data s) := id_ignoresRxBuf.responds st data

theorem exec_readReg_ignoresRxBuf (b : Byte) : IgnoresRxBuf outcomeWithRxBuf (exec (.readReg b)) := by
  intro m s
  have same_value : regValue (withRxBuf m s) b = regValue s b := rfl
  simp only [exec, execReadReg, same_value]
  cases regValue s b <;> rfl

theorem exec_dispatchDone_ignoresRxBuf : IgnoresRxBuf outcomeWithRxBuf (exec .dispatchDone) := by
  have owed : IgnoresRxBuf withRxBuf fun t => if t.ackPend = true ∧ t.link = .up then sendS fnRR t.rxNext t else t :=
    .ite (fun _ _ => Iff.rfl) (fun _ _ => rfl) id_ignoresRxBuf
  have cleared : IgnoresRxBuf withRxBuf fun u => { u with ackPend := false } := fun _ _ => rfl
  have taken : IgnoresRxBuf withRxBuf fun s => { s with dispPend := false } := fun _ _ => rfl
  exact .ite (fun _ _ => Iff.rfl) (((cleared.comp owed).comp taken).responds .ok []) (answer_ignoresRxBuf .badState [])

theorem exec_connect_ignoresRxBuf : IgnoresRxBuf outcomeWithRxBuf (exec .connect) :=
  .ite (fun _ _ => Iff.rfl) (answer_ignoresRxBuf .busy []) <|
    .ite (fun _ _ => Iff.rfl) (answer_ignoresRxBuf .badState []) fun _ _ => rfl

theorem exec_disconnect_ignoresRxBuf : IgnoresRxBuf outcomeWithRxBuf (exec .disconnect) :=
  .ite (fun _ _ => Iff.rfl) (answer_ignoresRxBuf .busy []) <|
    .ite (fun _ _ => Iff.rfl) (answer_ignoresRxBuf .ok []) fun _ _ => rfl

theorem exec_submit_ignoresRxBuf (p : Packet) : IgnoresRxBuf outcomeWithRxBuf (exec (.submit p)) := by
  have queued : IgnoresRxBuf withRxBuf fun s => drain { s with inFifo := s.inFifo ++ [p] } :=
    drain_ignoresRxBuf.comp fun _ _ => rfl
  exact .ite (fun _ _ => Iff.rfl) (answer_ignoresRxBuf .tooLong []) <|
    .ite (fun _ _ => Iff.rfl) (answer_ignoresRxBuf .full []) (queued.responds .ok [])

theorem exec_tick_ignoresRxBuf : IgnoresRxBuf outcomeWithRxBuf (exec .tick) :=
  .ite (fun _ _ => Iff.rfl) (answer_ignoresRxBuf .busy []) <|
    .ite (fun _ _ => Iff.rfl) ((tickRT_ignoresRxBuf.comp tickLT_ignoresRxBuf).responds .ok [])
      (answer_ignoresRxBuf .ok [])

/-- Only RX_BYTE reads RX_BUF, and only SOFT_RESET and RX_BYTE write it. -/
theorem exec_ignoresRxBuf {i : Instr} (hrx : ∀ b, i ≠ .rxByte b) (hreset : i ≠ .softReset) :
    IgnoresRxBuf outcomeWithRxBuf (exec i) := by
  by_cases frame : i.isFrame = true
  · obtain ⟨ctrl, p, hexec⟩ := exec_frame frame
    intro m s
    rw [hexec, hexec]
    exact (classify_ignoresRxBuf ctrl p).next m s
  cases i with
  | softReset => exact absurd rfl hreset
  | rxByte b => exact absurd rfl (hrx b)
  | readReg b => exact exec_readReg_ignoresRxBuf b
  | connect => exact exec_connect_ignoresRxBuf
  | disconnect => exact exec_disconnect_ignoresRxBuf
  | submit p => exact exec_submit_ignoresRxBuf p
  | dispatchDone => exact exec_dispatchDone_ignoresRxBuf
  | tick => exact exec_tick_ignoresRxBuf
  | nop | crcReset | crcUpdate | crcGet | crcGetLast | stuff | reserved => exact fun _ _ => rfl
  | _ => exact absurd rfl frame

/-- Only SOFT_RESET and RX_BYTE write RX_LEN. -/
theorem exec_rxLen {i : Instr} {s t : State} (hrx : ∀ b, i ≠ .rxByte b) (hreset : i ≠ .softReset)
    (hexec : exec i s = .next t) : t.rxLen = s.rxLen := by
  cases exec_work hexec with
  | frame _ ctrl p => exact (classify_sameRx ctrl p s).rxLen
  | lineByte => exact absurd rfl (hrx _)
  | command st data work =>
    cases work with
    | softReset => exact absurd rfl hreset
    | submit => exact drain_rxLen _
    | tick => exact (tick_sameRx s).rxLen
    | none | crcReset | crcUpdate | connect | disconnect | dispatchOwed | dispatchNotOwed => rfl

/-! ### Two states that differ in unread bytes alone -/

/-- m and RX_BUF hold the same below RX_LEN. -/
def ReadAlike (m : Memory) (s : State) : Prop := ∀ a < s.rxLen, rxRead (withRxBuf m s) a = rxRead s a

/-- Both accepted, with next states that differ in unread bytes alone, or both the same fault. -/
inductive AcceptedAlike : Except Fault State → Except Fault State → Prop
  | ok {s t : State} (same : SameObserved s t) : AcceptedAlike (.ok s) (.ok t)
  | error (f : Fault) : AcceptedAlike (.error f) (.error f)

/-- Two outcomes that no observer tells apart. -/
inductive OutcomesAlike : Host.Outcome State Fault Refusal → Host.Outcome State Fault Refusal → Prop
  | next {s t : State} (same : SameObserved s t) : OutcomesAlike (.next s) (.next t)
  | fault (f : Fault) : OutcomesAlike (.fault f) (.fault f)
  | refused (r : Refusal) : OutcomesAlike (.refused r) (.refused r)

theorem sameObserved_iff {s t : State} : SameObserved s t ↔ ∃ m, t = withRxBuf m s ∧ ReadAlike m s := by
  constructor
  · rintro ⟨differ, alike⟩
    refine ⟨t.rxBuf, differ, fun a below => ?_⟩
    exact (rxRead_congr rfl a).trans (alike a below)
  · rintro ⟨m, rfl, alike⟩
    exact ⟨rfl, alike⟩

theorem SameObserved.refl (s : State) : SameObserved s s := ⟨rfl, fun _ _ => rfl⟩

section
variable {m : Memory} {s : State}

/-- What keeps RX_BUF and RX_LEN keeps the bytes below RX_LEN alike. -/
theorem ReadAlike.sameObserved {u : State} (alike : ReadAlike m s) (hbuf : u.rxBuf = s.rxBuf)
    (hlen : u.rxLen = s.rxLen) : SameObserved u (withRxBuf m u) :=
  sameObserved_iff.2 ⟨m, rfl, fun a below => by
    rw [rxRead_congr hbuf, ← alike a (hlen ▸ below)]
    exact rxRead_congr rfl a⟩

theorem SameObserved.respond {s t : State} (same : SameObserved s t) (st : Status) (data : List Byte) :
    SameObserved (respond st data s) (respond st data t) := by
  obtain ⟨m, rfl, alike⟩ := sameObserved_iff.1 same
  exact sameObserved_iff.2 ⟨m, rfl, alike⟩

theorem SameObserved.setRxState {s t : State} (same : SameObserved s t) (x : RxState) :
    SameObserved { s with rxState := x } { t with rxState := x } := by
  obtain ⟨m, rfl, alike⟩ := sameObserved_iff.1 same
  exact sameObserved_iff.2 ⟨m, rfl, alike⟩

/-- Opening a frame leaves no byte of RX_BUF to be read. -/
theorem rxOpen_sameObserved : SameObserved (rxOpen s) (rxOpen (withRxBuf m s)) :=
  sameObserved_iff.2 ⟨m, rfl, fun _ below => absurd below (Nat.not_lt_zero _)⟩

/-- The stored byte is the only one that comes to be read. -/
theorem rxStore_sameObserved (alike : ReadAlike m s) (b : Byte) :
    SameObserved (rxStore b s) (rxStore b (withRxBuf m s)) := by
  by_cases room : s.rxLen < s.cfg.maxFrame
  · have room' : (withRxBuf m s).rxLen < (withRxBuf m s).cfg.maxFrame := room
    rw [rxStore_room b room, rxStore_room b room']
    refine ⟨rfl, fun a below => ?_⟩
    show rxRead (rxWrite s.rxLen b (withRxBuf m s)) a = rxRead (rxWrite s.rxLen b s) a
    rw [rxRead_rxWrite, rxRead_rxWrite]
    by_cases stored : a = s.rxLen
    · rw [if_pos stored, if_pos stored]
    · rw [if_neg stored, if_neg stored]
      exact alike a (Nat.lt_of_le_of_ne (Nat.lt_succ_iff.1 below) stored)
  · have full' : (withRxBuf m s).cfg.maxFrame ≤ (withRxBuf m s).rxLen := Nat.not_lt.1 room
    rw [rxStore_full b (Nat.not_lt.1 room), rxStore_full b full']
    exact sameObserved_iff.2 ⟨m, rfl, alike⟩

/-- The frame parser reads RX_BUF below RX_LEN alone. -/
theorem rxFrame_withRxBuf (alike : ReadAlike m s) : rxFrame (withRxBuf m s) = rxFrame s := by
  have same_bytes : (List.range s.rxLen).map (rxRead (withRxBuf m s)) = (List.range s.rxLen).map (rxRead s) :=
    List.map_congr_left fun a ha => alike a (List.mem_range.1 ha)
  show (if s.rxLen ≤ s.cfg.maxFrame then Except.ok ((List.range s.rxLen).map (rxRead (withRxBuf m s))) else _) = _
  rw [same_bytes]
  rfl

theorem frameComplete_withRxBuf (alike : ReadAlike m s) :
    frameComplete (withRxBuf m s) = (frameComplete s).map (withRxBuf m) := by
  by_cases overrun : s.rxOvr = true
  · rw [frameComplete_overrun overrun, frameComplete_overrun (s := withRxBuf m s) overrun]
    rfl
  have no_overrun : s.rxOvr = false := eq_false_of_ne_true overrun
  by_cases short : s.rxLen < 4
  · rw [frameComplete_short no_overrun short, frameComplete_short (s := withRxBuf m s) no_overrun short]
    rfl
  have same_classify (ctrl : Byte) (p : Packet) :
      classify ctrl p (withRxBuf m s) = withRxBuf m (classify ctrl p s) := classify_ignoresRxBuf ctrl p m s
  have short' : ¬(withRxBuf m s).rxLen < 4 := short
  have overrun' : ¬(withRxBuf m s).rxOvr = true := overrun
  have same_crc : (withRxBuf m s).crcRx = s.crcRx := rfl
  have same_cfg : (withRxBuf m s).cfg = s.cfg := rfl
  simp only [frameComplete, if_neg overrun, if_neg overrun', if_neg short, if_neg short', rxFrame_withRxBuf alike,
    same_classify, same_crc, same_cfg]
  cases rxFrame s with
  | error f => rfl
  | ok frame =>
    by_cases passes : fcsReceived s.cfg.fcsOrder frame = crcGetLastX s.crcRx ^^^ s.cfg.crcXorout
    · simp only [passes, ne_eq, not_true_eq_false, if_false]
      rfl
    · simp only [passes, ne_eq, not_false_eq_true, if_true]
      rfl

theorem frameComplete_acceptedAlike (alike : ReadAlike m s) :
    AcceptedAlike (frameComplete s) (frameComplete (withRxBuf m s)) := by
  rw [frameComplete_withRxBuf alike]
  cases complete : frameComplete s with
  | error f => exact .error f
  | ok u =>
    have same := frameComplete_sameRx complete
    exact .ok (alike.sameObserved same.rxBuf same.rxLen)

theorem rxIdle_sameObserved (alike : ReadAlike m s) (b : Byte) :
    SameObserved (rxIdle b s) (rxIdle b (withRxBuf m s)) := by
  by_cases flag : b = flagByte
  · subst flag
    rw [rxIdle_flag, rxIdle_flag]
    exact rxOpen_sameObserved.setRxState .inFrame
  · rw [rxIdle_dropped flag, rxIdle_dropped flag]
    exact alike.sameObserved rfl rfl

theorem rxEscaping_sameObserved (alike : ReadAlike m s) (b : Byte) :
    SameObserved (rxEscaping b s) (rxEscaping b (withRxBuf m s)) := by
  by_cases esc : b = escByte
  · subst esc
    rw [rxEscaping_esc, rxEscaping_esc]
    exact alike.sameObserved rfl rfl
  · rw [rxEscaping_data esc, rxEscaping_data esc]
    exact (rxStore_sameObserved alike _).setRxState .inFrame

theorem rxInFrame_acceptedAlike (alike : ReadAlike m s) (b : Byte) :
    AcceptedAlike (rxInFrame b s) (rxInFrame b (withRxBuf m s)) := by
  by_cases esc : b = escByte
  · subst esc
    rw [rxInFrame_esc, rxInFrame_esc]
    exact .ok ((alike.sameObserved rfl rfl).setRxState .escaping)
  by_cases flag : b = flagByte
  · subst flag
    rw [rxInFrame_flag, rxInFrame_flag]
    by_cases holds : 0 < s.rxLen
    · have holds' : 0 < (withRxBuf m s).rxLen := holds
      rw [if_pos holds, if_pos holds']
      exact frameComplete_acceptedAlike (s := { s with rxState := .idle }) alike
    · have empty' : ¬ 0 < (withRxBuf m s).rxLen := holds
      rw [if_neg holds, if_neg empty']
      exact .ok rxOpen_sameObserved
  · rw [rxInFrame_data esc flag, rxInFrame_data esc flag]
    exact .ok (rxStore_sameObserved alike b)

theorem rxAccept_acceptedAlike (alike : ReadAlike m s) (b : Byte) :
    AcceptedAlike (rxAccept b s) (rxAccept b (withRxBuf m s)) := by
  cases hs : s.rxState with
  | idle =>
    have hs' : (withRxBuf m s).rxState = .idle := hs
    rw [rxAccept_idle hs, rxAccept_idle hs']
    exact .ok (rxIdle_sameObserved alike b)
  | inFrame =>
    have hs' : (withRxBuf m s).rxState = .inFrame := hs
    rw [rxAccept_inFrame hs, rxAccept_inFrame hs']
    exact rxInFrame_acceptedAlike alike b
  | escaping =>
    have hs' : (withRxBuf m s).rxState = .escaping := hs
    rw [rxAccept_escaping hs, rxAccept_escaping hs']
    exact .ok (rxEscaping_sameObserved alike b)

theorem exec_rxByte_alike (alike : ReadAlike m s) (b : Byte) :
    OutcomesAlike (exec (.rxByte b) s) (exec (.rxByte b) (withRxBuf m s)) := by
  by_cases busy : s.dispPend = true
  · rw [exec_rxByte_busy busy, exec_rxByte_busy (s := withRxBuf m s) busy]
    exact .next ((alike.sameObserved rfl rfl).respond .busy [])
  · have busy' : ¬ (withRxBuf m s).dispPend = true := busy
    simp only [exec, execRxByte, if_neg busy, if_neg busy']
    generalize rxAccept b s = accepted, rxAccept b (withRxBuf m s) = accepted', rxAccept_acceptedAlike alike b = both
    cases both with
    | ok same => exact .next (same.respond .ok [])
    | error f => exact .fault f

theorem exec_alike (alike : ReadAlike m s) (i : Instr) : OutcomesAlike (exec i s) (exec i (withRxBuf m s)) := by
  by_cases hrx : ∃ b, i = .rxByte b
  · obtain ⟨b, rfl⟩ := hrx
    exact exec_rxByte_alike alike b
  by_cases hreset : i = .softReset
  · subst hreset
    exact .next (.refl _)
  rw [not_exists] at hrx
  have ignores := exec_ignoresRxBuf hrx hreset
  rw [ignores m s]
  cases hexec : exec i s with
  | fault f => exact .fault f
  | refused r => exact .refused r
  | next u =>
    exact .next (alike.sameObserved (ignores.next_rxBuf hexec) (exec_rxLen hrx hreset hexec))

theorem step_alike (alike : ReadAlike m s) : OutcomesAlike (step s) (step (withRxBuf m s)) := by
  cases hdecode : decode s.input with
  | ok taken =>
    obtain ⟨i, rest⟩ := taken
    rw [step_of_decode hdecode, step_of_decode (s := withRxBuf m s) hdecode]
    exact exec_alike (s := { s with input := rest }) alike i
  | error e =>
    by_cases ended : s.input = []
    · rw [step_of_no_input ended, step_of_no_input (s := withRxBuf m s) ended]
      exact .refused _
    · rw [step_of_incomplete ended hdecode, step_of_incomplete (s := withRxBuf m s) ended hdecode]
      exact .refused _

end

/-- Settles O58: the step of the one state is that of the other with another RX_BUF, which agrees below RX_LEN. -/
theorem unreadBufferBytesInvisible : Obligations.UnreadBufferBytesInvisible := by
  unfold Obligations.UnreadBufferBytesInvisible
  intro s t same
  obtain ⟨m, rfl, alike⟩ := sameObserved_iff.1 same
  generalize step s = o, step (withRxBuf m s) = p, step_alike alike = both
  cases both with
  | next same => exact .inl ⟨_, _, rfl, rfl, same⟩
  | fault f => exact .inr (.inl ⟨f, rfl, rfl⟩)
  | refused r => exact .inr (.inr ⟨r, rfl, rfl⟩)

end Sys2Proof.Machine
